-- ==== Sys2Proof/Word.lean ====
section
/-! DEFINITION. The word types of the block and the bundle of its four lines (00_scope.md R6, 10_state.md R40). -/

namespace Sys2Proof

/-- A byte: 8 bits, unsigned (R6). -/
abbrev Byte := BitVec 8

/-- A host word: 32 bits (R7: the host bus moves only 32-bit words). -/
abbrev Word := BitVec 32

/-- One bit for each of the four lines Sync, Ack, Data, Clock (R40). Used for levels (`true` = 1) and for
pulls (`true` = the agent pulls the line low). -/
structure Lines where
  sync : Bool
  ack : Bool
  data : Bool
  clock : Bool
deriving DecidableEq, Repr, Inhabited

/-- No line is pulled (R67: every line released). -/
def Lines.released : Lines := ⟨false, false, false, false⟩

/-- All four lines at level 1, the idle bus (R119). -/
def Lines.idle : Lines := ⟨true, true, true, true⟩

end Sys2Proof
end

