-- ==== Sys2Proof/Syntax.lean ====
section
/-! DEFINITION. The instructions: one constructor of `Instr` per row of opcode_table.json, in its order.
The CMD rows carry every bit of the CMD word that their row does not fix (30_encoding.md R110); the wire rows
carry the frame's payload and checksum byte (R114). -/

namespace Sys2Proof

/-- The 12 logical commands, in the order of their index (30_encoding.md R112). -/
inductive Cmd where
  | init0 | init1 | init2 | flashSetting | camSetting | postflash1 | postflash2 | afIllumination
  | redEyeReduction | modellingLight | preflash1 | preflash2
deriving DecidableEq, Repr

/-- The operation of a session, `st.op` (10_state.md R51). -/
inductive Op where
  | none | listen | send | receive
deriving DecidableEq, Repr

/-- The instructions of opcode_table.json. `ign` is CMD[7:3], `sel` CMD[11:8] (`selLo` CMD[9:8], where the row
fixes CMD[11:10] = 3) and `high` CMD[31:12]. A wire row's operands are its payload and its checksum byte. -/
inductive Instr where
  | nop (ign : BitVec 5) (sel : BitVec 4) (high : BitVec 20)
  | listen (ign : BitVec 5) (sel : BitVec 4) (high : BitVec 20)
  | send (ign : BitVec 5) (sel : BitVec 4) (high : BitVec 20)
  | receive (ign : BitVec 5) (sel : BitVec 4) (high : BitVec 20)
  | reservedOp4 (ign : BitVec 5) (sel : BitVec 4) (high : BitVec 20)
  | reservedOp5 (ign : BitVec 5) (sel : BitVec 4) (high : BitVec 20)
  | reservedOp6 (ign : BitVec 5) (sel : BitVec 4) (high : BitVec 20)
  | reservedOp7 (ign : BitVec 5) (sel : BitVec 4) (high : BitVec 20)
  | sendReservedCmdsel (ign : BitVec 5) (selLo : BitVec 2) (high : BitVec 20)
  | receiveReservedCmdsel (ign : BitVec 5) (selLo : BitVec 2) (high : BitVec 20)
  | init0 (payload : List Byte) (checksum : Byte)
  | init1 (payload : List Byte) (checksum : Byte)
  | init2 (payload : List Byte) (checksum : Byte)
  | flashSetting (payload : List Byte) (checksum : Byte)
  | camSetting (payload : List Byte) (checksum : Byte)
  | postflash1 (payload : List Byte) (checksum : Byte)
  | postflash2 (payload : List Byte) (checksum : Byte)
  | afIllumination (payload : List Byte) (checksum : Byte)
  | redEyeReduction (payload : List Byte) (checksum : Byte)
  | modellingLight (payload : List Byte) (checksum : Byte)
  | preflash1 (payload : List Byte) (checksum : Byte)
  | preflash2 (payload : List Byte) (checksum : Byte)
deriving DecidableEq, Repr

end Sys2Proof
end

