-- ==== Sys2Proof/Config.lean ====
section
/-! DEFINITION. The configuration (00_scope.md R5, 10_state.md R65), the inputs of a tick (10_state.md R31) and
the model's two uninterpreted constants: a checksum function of no stated algorithm (log entry 3) and the inputs
of a tick for which none are listed (log entry 5). -/

namespace Sys2Proof

/-- The scaled physical quantities (30_encoding.md R120; 42_message_catalog.md R252 to R257). -/
inductive Quantity where
  | power | iso | exposure | fstop | focal | distance
deriving DecidableEq, Repr

/-- The kind of a layout entry (R120): OPAQUE, FLAG, CONST(c), SCALED(q). -/
inductive Kind where
  | opaqueBits
  | flag
  | const (c : Byte)
  | scaled (q : Quantity)
deriving DecidableEq, Repr

/-- A layout entry, the record `{name, byte, lo, width, kind}` of R120. -/
structure Entry where
  name : String
  byte : Nat
  lo : Nat
  width : Nat
  kind : Kind
deriving DecidableEq, Repr

/-- The direction of a command, `DIR[k]` (42_message_catalog.md R267); no rule reads it. -/
inductive Direction where
  | cameraToFlash | flashToCamera
deriving DecidableEq, Repr

/-- Which function CHECKSUM is (41_frame_codec.md R200, R201). `sum8` and `xor8` are the two example
instantiations that the spec names; `uninterpreted n` is a total function of which nothing is known
(`Config.openChecksum n`): the spec's OPEN parameter. DESIGN CHOICE, safe (log entry 3). -/
inductive ChecksumAlg where
  | sum8
  | xor8
  | uninterpreted (n : Nat)
deriving DecidableEq, Repr

/-- The configuration: every parameter that 00_scope.md R5 and the OPEN table of 92_eei_decisions.md leave open.
`tTick` is the tick period in seconds; DIR, BASE and T_TICK are read by no rule of the datapath. -/
structure Config where
  codeInit0 : Byte
  codeInit1 : Byte
  codeInit2 : Byte
  codeFlashSetting : Byte
  codeCamSetting : Byte
  codeRedEyeReduction : Byte
  codeModellingLight : Byte
  codePreflash1 : Byte
  codePreflash2 : Byte
  checksumAlg : ChecksumAlg
  /-- `LAYOUT[k]`, in index order. -/
  layouts : Vector (List Entry) 12
  /-- `ISO_POS` of R235. -/
  isoPos : Nat
  /-- `DIR[k]`, in index order. -/
  dir : Vector Direction 12
  /-- `BASE`, the system address of the 4 KiB window (20_memory.md R89). -/
  base : Nat
  /-- `T_TICK` (70_reset_and_hazards.md R365). -/
  tTick : Rat
deriving DecidableEq, Repr

/-- A host access of one tick: the ports h_en, h_we, h_addr and h_wdata of 10_state.md R31 (`idle` is h_en = 0). -/
inductive HostAccess where
  | idle
  | read (addr : BitVec 12)
  | write (addr : BitVec 12) (data : Word)
deriving DecidableEq, Repr, Inhabited

/-- The inputs of one tick: reset, the host access and the peer's pull on each line (R31, R40, R350). -/
structure TickInput where
  rst : Bool
  host : HostAccess
  peer : Lines
deriving DecidableEq, Repr, Inhabited

/-- The OPEN checksum function number `n` (R200: total and deterministic, nothing else is assumed). Uninterpreted.
Log entry 3. -/
opaque Config.openChecksum : Nat → List Byte → Byte

/-- The inputs of tick `n` when the state lists none: the host, the peer and `rst` are unconstrained (93 U13).
Uninterpreted. Log entry 5. -/
opaque Config.freeInput : Nat → TickInput

end Sys2Proof
end

