-- ==== Sys2Proof/Machine/Catalog.lean ====
section
/-! DEFINITION. The Message Catalog's tables: index, wire code, payload length and layout of each logical command
(30_encoding.md R112, R115; 42_message_catalog.md R230), the checksum, and the configuration that the state after
reset holds (log entry 2). -/

namespace Sys2Proof

/-- The catalog in index order (R112). -/
def Cmd.all : List Cmd :=
  [.init0, .init1, .init2, .flashSetting, .camSetting, .postflash1, .postflash2, .afIllumination,
    .redEyeReduction, .modellingLight, .preflash1, .preflash2]

/-- The logical command index (R112), as a place of a 12-place table. -/
def Cmd.slot : Cmd → Fin 12
  | .init0 => 0
  | .init1 => 1
  | .init2 => 2
  | .flashSetting => 3
  | .camSetting => 4
  | .postflash1 => 5
  | .postflash2 => 6
  | .afIllumination => 7
  | .redEyeReduction => 8
  | .modellingLight => 9
  | .preflash1 => 10
  | .preflash2 => 11

/-- The logical command index as the 4-bit field that CMDSEL and CMDIDX hold (R112). -/
def Cmd.index (k : Cmd) : BitVec 4 := BitVec.ofNat 4 k.slot.val

/-- The logical command of a 4-bit index; 12 to 15 name none (R112, R113). -/
def Cmd.ofIndex (v : BitVec 4) : Option Cmd := Cmd.all[v.toNat]?

/-- `LEN[k]`, the payload length in bytes (R115, R230). -/
def Cmd.len : Cmd → Nat
  | .init0 => 17
  | .init1 => 9
  | .init2 => 45
  | .flashSetting => 17
  | .camSetting => 14
  | .postflash1 => 1
  | .postflash2 => 2
  | .afIllumination => 2
  | .redEyeReduction => 1
  | .modellingLight => 1
  | .preflash1 => 1
  | .preflash2 => 1

/-- `FLEN[k]`, the frame length in bytes (R114). -/
def Cmd.flen (k : Cmd) : Nat := k.len + 2

/-- The wire code of both Postflash commands (R115). -/
abbrev postflashCode : Byte := 0xC0#8

/-- The wire code of AF_Illumination (R115). -/
abbrev afIlluminationCode : Byte := 0xD1#8

/-- `CODE[k]`, the wire command byte (R115): three codes are the source's, nine are configuration. -/
def Config.code (c : Config) : Cmd → Byte
  | .init0 => c.codeInit0
  | .init1 => c.codeInit1
  | .init2 => c.codeInit2
  | .flashSetting => c.codeFlashSetting
  | .camSetting => c.codeCamSetting
  | .postflash1 => postflashCode
  | .postflash2 => postflashCode
  | .afIllumination => afIlluminationCode
  | .redEyeReduction => c.codeRedEyeReduction
  | .modellingLight => c.codeModellingLight
  | .preflash1 => c.codePreflash1
  | .preflash2 => c.codePreflash2

/-- `LAYOUT[k]` (R230, R243). -/
def Config.layout (c : Config) (k : Cmd) : List Entry := c.layouts.get k.slot

/-- `DIR[k]` (R267). -/
def Config.direction (c : Config) (k : Cmd) : Direction := c.dir.get k.slot

/-- `CHECKSUM` over a byte list (R200), with the two named examples of R201. -/
def Config.checksum (c : Config) (l : List Byte) : Byte :=
  match c.checksumAlg with
  | .sum8 => l.foldl (· + ·) 0
  | .xor8 => l.foldl (· ^^^ ·) 0
  | .uninterpreted n => Config.openChecksum n l

/-- The byte address of a register offset in the system's address map (43_host_ops.md R287: `BASE + off`). -/
def Config.hostAddress (c : Config) (off : BitVec 12) : Nat := c.base + off.toNat

/-- The physical time of a number of ticks (70_reset_and_hazards.md R365). -/
def Config.seconds (c : Config) (ticks : Nat) : Rat := ticks * c.tTick

/-- The source's microsecond-resolution timing is met when `T_TICK ≤ 1 µs` (R365). -/
abbrev Config.microsecondResolution (c : Config) : Prop := c.tTick ≤ 1 / 1000000

/-- The entry that R238 fixes: AF_Illumination's Enable flag, bit 0 of payload byte 0. -/
def enableEntry : Entry := ⟨"Enable", 0, 0, 1, .flag⟩

/-- The entry of Cam_Setting that R235 constrains, at byte `pos`. -/
def isoEntry (pos : Nat) : Entry := ⟨"ISO", pos, 0, 8, .scaled .iso⟩

/-- The default layout of R244. -/
def defaultLayouts : Vector (List Entry) 12 :=
  #v[[], [], [], [], [isoEntry 0], [], [], [enableEntry], [], [], [], []]

/-- The configuration in which the state after reset stands: the example codes EX, SUM8 and the default layout,
the start of every program of 95_test_vectors.md. DESIGN CHOICE, unsafe for a claim that rests on these values:
no statement does (log entry 2). -/
def Config.atReset : Config where
  codeInit0 := 0x10#8
  codeInit1 := 0x11#8
  codeInit2 := 0x12#8
  codeFlashSetting := 0x20#8
  codeCamSetting := 0x21#8
  codeRedEyeReduction := 0x30#8
  codeModellingLight := 0x31#8
  codePreflash1 := 0x40#8
  codePreflash2 := 0x41#8
  checksumAlg := .sum8
  layouts := defaultLayouts
  isoPos := 0
  dir := Vector.replicate 12 .cameraToFlash
  base := 0
  tTick := { num := 1, den := 1000000, den_nz := by decide, reduced := by decide }

end Sys2Proof
end

