-- ==== Sys2Proof/WellFormed.lean ====
section
/-! DEFINITION. What an instruction and a configuration must satisfy (30_encoding.md R113, R114, R120;
00_scope.md R5; 42_message_catalog.md R243). -/

namespace Sys2Proof

/-- An instruction is well formed when CMDSEL of SEND and RECEIVE names a logical command (R112, R113: 12 to 15 are
other rows) and a frame's payload has its command's length (R114). -/
def Instr.wf : Instr → Bool
  | .nop _ _ _ => true
  | .listen _ _ _ => true
  | .send _ sel _ => decide (sel.toNat < 12)
  | .receive _ sel _ => decide (sel.toNat < 12)
  | .reservedOp4 _ _ _ => true
  | .reservedOp5 _ _ _ => true
  | .reservedOp6 _ _ _ => true
  | .reservedOp7 _ _ _ => true
  | .sendReservedCmdsel _ _ _ => true
  | .receiveReservedCmdsel _ _ _ => true
  | .init0 p _ => decide (p.length = Cmd.len .init0)
  | .init1 p _ => decide (p.length = Cmd.len .init1)
  | .init2 p _ => decide (p.length = Cmd.len .init2)
  | .flashSetting p _ => decide (p.length = Cmd.len .flashSetting)
  | .camSetting p _ => decide (p.length = Cmd.len .camSetting)
  | .postflash1 p _ => decide (p.length = Cmd.len .postflash1)
  | .postflash2 p _ => decide (p.length = Cmd.len .postflash2)
  | .afIllumination p _ => decide (p.length = Cmd.len .afIllumination)
  | .redEyeReduction p _ => decide (p.length = Cmd.len .redEyeReduction)
  | .modellingLight p _ => decide (p.length = Cmd.len .modellingLight)
  | .preflash1 p _ => decide (p.length = Cmd.len .preflash1)
  | .preflash2 p _ => decide (p.length = Cmd.len .preflash2)

/-- What R120 asks of an entry's kind, given its width and lowest bit. -/
def Kind.wf (width lo : Nat) : Kind → Bool
  | .opaqueBits => true
  | .flag => decide (width = 1)
  | .const c => decide (c.toNat < 2 ^ width)
  | .scaled _ => decide (width = 8 ∧ lo = 0)

/-- R120 and R243(a): the entry lies in one byte of a payload of `len` bytes, and its kind fits. -/
def Entry.wf (len : Nat) (e : Entry) : Bool :=
  decide (e.byte < len) && decide (e.lo ≤ 7) && decide (1 ≤ e.width) && decide (e.lo + e.width ≤ 8)
    && e.kind.wf e.width e.lo

/-- R243(b): two entries share no bit. -/
abbrev Entry.disjoint (e f : Entry) : Prop :=
  e.byte ≠ f.byte ∨ e.lo + e.width ≤ f.lo ∨ f.lo + f.width ≤ e.lo

/-- R243(a) to (c) for one command's entry list. -/
def layoutWf (len : Nat) (es : List Entry) : Bool :=
  es.all (Entry.wf len) && decide (es.Pairwise Entry.disjoint) && decide (es.length ≤ 64)

/-- The eleven distinct wire codes (90_conflicts.md C8). -/
def Config.wireCodes (c : Config) : List Byte :=
  [c.codeInit0, c.codeInit1, c.codeInit2, c.codeFlashSetting, c.codeCamSetting, c.codeRedEyeReduction,
    c.codeModellingLight, c.codePreflash1, c.codePreflash2, postflashCode, afIlluminationCode]

/-- R5: the open codes are pairwise distinct and none is 0xC0 or 0xD1. -/
def Config.codesWf (c : Config) : Bool := decide (c.wireCodes.Pairwise (· ≠ ·))

/-- R243(a) to (c) for every command. -/
def Config.layoutsWf (c : Config) : Bool := Cmd.all.all fun k => layoutWf k.len (c.layout k)

/-- R243(d), R238: AF_Illumination's layout begins with Enable. -/
def Config.enableWf (c : Config) : Bool := decide ((c.layout .afIllumination).head? = some enableEntry)

/-- R243(e), R235: Cam_Setting has exactly one SCALED(ISO) entry, at byte `ISO_POS`. -/
def Config.isoWf (c : Config) : Bool :=
  decide (c.isoPos ≤ 13) &&
    decide ((c.layout .camSetting).filter (fun e => e.kind == .scaled .iso) = [isoEntry c.isoPos])

/-- A configuration that breaks a listed constraint is refused (R5, R243). -/
def Config.wf (c : Config) : Bool := c.codesWf && c.layoutsWf && c.enableWf && c.isoWf

end Sys2Proof
end

