-- ==== Sys2Proof/Decode.lean ====
section
/-! DEFINITION. The decoder of the two encoded streams, the CMD word and the wire frame (30_encoding.md), and after
it the encoder, from the same tables. -/

namespace Sys2Proof

/-- An encoded instruction: a 32-bit word written to CMD (R110), or the bytes of a wire frame (R114). -/
inductive Encoded where
  | cmd (w : Word)
  | frame (bytes : List Byte)
deriving DecidableEq, Repr

/-- Why a byte list is no frame of the catalog. -/
inductive Reject where
  /-- No command byte at all. -/
  | emptyFrame
  /-- The command byte is not in the catalog (R116(c), 41_frame_codec.md R207). -/
  | unknownCommand (b : Byte)
  /-- The command byte is not the code of the command the frame is read as. -/
  | otherCommand (k : Cmd) (b : Byte)
  /-- The frame does not have `FLEN[k]` bytes (R114, R209). -/
  | wrongLength (k : Cmd) (n : Nat)
deriving DecidableEq, Repr

/-- The instruction of a frame of command `k` (R114: command, payload, checksum). -/
def frameInstr (k : Cmd) (p : List Byte) (ck : Byte) : Instr :=
  match k with
  | .init0 => .init0 p ck
  | .init1 => .init1 p ck
  | .init2 => .init2 p ck
  | .flashSetting => .flashSetting p ck
  | .camSetting => .camSetting p ck
  | .postflash1 => .postflash1 p ck
  | .postflash2 => .postflash2 p ck
  | .afIllumination => .afIllumination p ck
  | .redEyeReduction => .redEyeReduction p ck
  | .modellingLight => .modellingLight p ck
  | .preflash1 => .preflash1 p ck
  | .preflash2 => .preflash2 p ck

/-- CMD[2:0], the operation (R110). -/
def cmdOp (w : Word) : BitVec 3 := w.extractLsb' 0 3

/-- CMD[7:3], ignored (R110). -/
def cmdIgn (w : Word) : BitVec 5 := w.extractLsb' 3 5

/-- CMD[11:8], CMDSEL (R110). -/
def cmdSel (w : Word) : BitVec 4 := w.extractLsb' 8 4

/-- CMD[9:8], the low half of CMDSEL. -/
def cmdSelLo (w : Word) : BitVec 2 := w.extractLsb' 8 2

/-- CMD[31:12], ignored (R110). -/
def cmdHigh (w : Word) : BitVec 20 := w.extractLsb' 12 20

/-- The instruction of a CMD word (R110, R111, R113): every word is one of the ten CMD rows. -/
def decodeCmd (w : Word) : Instr :=
  match (cmdOp w).toNat with
  | 0 => .nop (cmdIgn w) (cmdSel w) (cmdHigh w)
  | 1 => .listen (cmdIgn w) (cmdSel w) (cmdHigh w)
  | 2 =>
    if 12 ≤ (cmdSel w).toNat then .sendReservedCmdsel (cmdIgn w) (cmdSelLo w) (cmdHigh w)
    else .send (cmdIgn w) (cmdSel w) (cmdHigh w)
  | 3 =>
    if 12 ≤ (cmdSel w).toNat then .receiveReservedCmdsel (cmdIgn w) (cmdSelLo w) (cmdHigh w)
    else .receive (cmdIgn w) (cmdSel w) (cmdHigh w)
  | 4 => .reservedOp4 (cmdIgn w) (cmdSel w) (cmdHigh w)
  | 5 => .reservedOp5 (cmdIgn w) (cmdSel w) (cmdHigh w)
  | 6 => .reservedOp6 (cmdIgn w) (cmdSel w) (cmdHigh w)
  | _ => .reservedOp7 (cmdIgn w) (cmdSel w) (cmdHigh w)

/-- The Postflash length selection for wire code 0xC0 (41_frame_codec.md R205). -/
def postflashSelect (op : Op) (sel : BitVec 4) (pf : Bool) : Cmd :=
  if op = .receive ∧ sel = Cmd.index .postflash1 then .postflash1
  else if op = .receive ∧ sel = Cmd.index .postflash2 then .postflash2
  else if pf then .postflash2
  else .postflash1

/-- The lookup of a received command byte (R116, 41_frame_codec.md R204); `none` is UNKNOWN. -/
def lookup (c : Config) (op : Op) (sel : BitVec 4) (pf : Bool) (b : Byte) : Option Cmd :=
  if b = postflashCode then some (postflashSelect op sel pf)
  else Cmd.all.find? fun k => c.code k = b

/-- The instruction of a frame that is read as command `k`: its command byte, exactly `LEN[k]` payload bytes and
its checksum byte (R114, R209). -/
def decodeFrameAs (c : Config) (k : Cmd) (bytes : List Byte) : Except Reject Instr :=
  match bytes with
  | [] => .error .emptyFrame
  | b :: rest =>
    if b ≠ c.code k then .error (.otherCommand k b)
    else if rest.length ≠ k.len + 1 then .error (.wrongLength k (rest.length + 1))
    else .ok (frameInstr k (rest.take k.len) (rest.getD k.len 0))

/-- The instruction of a whole received frame, its command found by `lookup` (R117, R204 to R206). -/
def decodeFrame (c : Config) (op : Op) (sel : BitVec 4) (pf : Bool) (bytes : List Byte) : Except Reject Instr :=
  match bytes with
  | [] => .error .emptyFrame
  | b :: rest =>
    match lookup c op sel pf b with
    | none => .error (.unknownCommand b)
    | some k => decodeFrameAs c k (b :: rest)

/-- The decoder over both streams. `op`, `sel` and `pf` are the session's, for the Postflash choice (R205). -/
def decode (c : Config) (op : Op) (sel : BitVec 4) (pf : Bool) : Encoded → Except Reject Instr
  | .cmd w => .ok (decodeCmd w)
  | .frame bytes => decodeFrame c op sel pf bytes

/-- The CMD word of its four fields (R110). -/
def cmdWord (op : BitVec 3) (ign : BitVec 5) (sel : BitVec 4) (high : BitVec 20) : Word :=
  high ++ sel ++ ign ++ op

/-- CMDSEL of the reserved rows, whose bits [11:10] are 3 (R113). -/
def reservedSel (selLo : BitVec 2) : BitVec 4 := 3#2 ++ selLo

/-- The bytes of a frame, `[CODE[k]] || payload || [checksum]` (R114). -/
def frameBytes (c : Config) (k : Cmd) (p : List Byte) (ck : Byte) : List Byte := c.code k :: (p ++ [ck])

/-- `encodeFrame(k, payload)` (41_frame_codec.md R203): the frame with its right checksum. -/
def encodeFrame (c : Config) (k : Cmd) (p : List Byte) : List Byte :=
  frameBytes c k p (c.checksum (c.code k :: p))

/-- The encoder: the words of an instruction, from the tables of R110, R113, R114 and R115. -/
def encode (c : Config) : Instr → Encoded
  | .nop ign sel high => .cmd (cmdWord 0 ign sel high)
  | .listen ign sel high => .cmd (cmdWord 1 ign sel high)
  | .send ign sel high => .cmd (cmdWord 2 ign sel high)
  | .receive ign sel high => .cmd (cmdWord 3 ign sel high)
  | .reservedOp4 ign sel high => .cmd (cmdWord 4 ign sel high)
  | .reservedOp5 ign sel high => .cmd (cmdWord 5 ign sel high)
  | .reservedOp6 ign sel high => .cmd (cmdWord 6 ign sel high)
  | .reservedOp7 ign sel high => .cmd (cmdWord 7 ign sel high)
  | .sendReservedCmdsel ign selLo high => .cmd (cmdWord 2 ign (reservedSel selLo) high)
  | .receiveReservedCmdsel ign selLo high => .cmd (cmdWord 3 ign (reservedSel selLo) high)
  | .init0 p ck => .frame (frameBytes c .init0 p ck)
  | .init1 p ck => .frame (frameBytes c .init1 p ck)
  | .init2 p ck => .frame (frameBytes c .init2 p ck)
  | .flashSetting p ck => .frame (frameBytes c .flashSetting p ck)
  | .camSetting p ck => .frame (frameBytes c .camSetting p ck)
  | .postflash1 p ck => .frame (frameBytes c .postflash1 p ck)
  | .postflash2 p ck => .frame (frameBytes c .postflash2 p ck)
  | .afIllumination p ck => .frame (frameBytes c .afIllumination p ck)
  | .redEyeReduction p ck => .frame (frameBytes c .redEyeReduction p ck)
  | .modellingLight p ck => .frame (frameBytes c .modellingLight p ck)
  | .preflash1 p ck => .frame (frameBytes c .preflash1 p ck)
  | .preflash2 p ck => .frame (frameBytes c .preflash2 p ck)

/-- The number of bits of an encoded instruction. -/
def Encoded.bits : Encoded → Nat
  | .cmd _ => 32
  | .frame bytes => 8 * bytes.length

/-- The bytes of a table word, first byte lowest, from byte `at` on for `n` bytes. -/
def tableBytes (w : Nat) : Nat → List Byte
  | 0 => []
  | n + 1 => BitVec.ofNat 8 w :: tableBytes (w / 256) n

/-- The instruction the decoder reads from a word of opcode_table.json. The table numbers the bits of both streams
alike: a word of 32 bits is a CMD word; a shorter one whose first byte is a wire code is the frame that begins with
these bytes, its other bytes 0, and any other one is a CMD word whose other bits are 0. The configuration is the
one at reset, and 0xC0 is read with CTRL.PF_SEL = 0. DESIGN CHOICE (log entry 9). -/
def decodeTableWord (nbits w : Nat) : Option Instr :=
  let cmd := some (decodeCmd (BitVec.ofNat 32 (w % 2 ^ nbits)))
  if 32 ≤ nbits then cmd
  else
    match lookup Config.atReset .listen 0 false (BitVec.ofNat 8 (w % 2 ^ nbits)) with
    | none => cmd
    | some k => (decodeFrameAs Config.atReset k (tableBytes (w % 2 ^ nbits) k.flen)).toOption

end Sys2Proof
end

