-- ==== Sys2Proof/Machine/State.lean ====
section
/-! DEFINITION. The machine's state as plain data, the reasons a step can stop, and the state after reset
(10_state.md R30 to R67). -/

namespace Sys2Proof.Machine

/-- The byte memory: address and byte pairs, addresses strictly rising, no byte equal to what an unlisted address
reads as (`Memory.wf`). -/
abbrev Memory := List Host.Cell

/-- The session's role, `st.role` (R52). -/
inductive Role where
  | none | sender | receiver | observer
deriving DecidableEq, Repr

/-- The handshake state, `st.hs` (R53). -/
inductive HS where
  | idle | start | bit | ack | timedOut
deriving DecidableEq, Repr

/-- The parameters latched at issue, `st.L` (R63). -/
structure Latched where
  tmo : BitVec 32
  tbit : BitVec 16
  tack : BitVec 16
  thalf : BitVec 16
  tackhold : BitVec 16
  pf : Bool
  sel : BitVec 4
deriving DecidableEq, Repr

/-- The state. The first group is the host-visible registers, the second the Bus Session, the third the lines
(R30); the last is the model's own (log entries 2, 5 and 6). -/
@[ext]
structure State where
  /-- CTRL.IE (R33). -/
  ie : Bool
  /-- CTRL.PF_SEL (R33). -/
  pfSel : Bool
  /-- STATUS.DONE (R35). -/
  done : Bool
  /-- STATUS.REJ (R35). -/
  rej : Bool
  /-- RESULT (R36). -/
  result : Word
  /-- TMO (R37). -/
  tmo : Word
  /-- TIMING0: TBIT [15:0], TACK [31:16] (R38). -/
  timing0 : Word
  /-- TIMING1: THALF [15:0], TACKHOLD [31:16] (R39). -/
  timing1 : Word
  /-- ANOM0 (R41). -/
  anom0 : Word
  /-- ANOM1 (R41). -/
  anom1 : Word
  /-- FBUF, TXPAY and FIELD, by host byte address (R43 to R45). -/
  mem : Memory
  /-- `st.busy` (R50). -/
  busy : Bool
  /-- `st.op` (R51). -/
  op : Op
  /-- `st.role` (R52). -/
  role : Role
  /-- `st.hs` (R53). -/
  hs : HS
  /-- `st.bitn` (R54). -/
  bitn : BitVec 3
  /-- `st.ph` (R55). -/
  ph : Bool
  /-- `st.cnt` (R56). -/
  cnt : BitVec 32
  /-- `st.offset` (R57). -/
  offset : BitVec 6
  /-- `st.flen` (R57). -/
  flen : BitVec 6
  /-- `st.cidx` (R58); `none` is 15. -/
  cidx : Option Cmd
  /-- `st.shreg` (R59). -/
  shreg : Byte
  /-- `st.shadow[0..46]`, by frame byte index (R59). -/
  shadow : Memory
  /-- `st.L` (R63). -/
  latched : Latched
  /-- `st.oe` (R60): `true` pulls the line low. -/
  oe : Lines
  /-- `st.prev` (R62): the levels of the previous tick. -/
  prev : Lines
  /-- The configuration (R65), written by nothing. The model's own field (log entry 2). -/
  cfg : Config
  /-- The inputs of the coming ticks, the next one first. The model's own field (log entry 5). -/
  inputs : List TickInput
  /-- The number of ticks taken. The model's own field (log entry 5). -/
  tick : Nat
  /-- The word on `h_rdata` in the tick just taken, if it made a read. The model's own field (log entry 6). -/
  hRdata : Option Word
deriving DecidableEq, Repr

/-- Why the machine stops with a fault. -/
inductive Fault where
  /-- Raised by the byte done of a receiving session (40_handshake.md R166) whose bytes, at `n = flen`, are no frame
  of its command. R57, R58 and R209 rule such a state out, and no run reaches one. Safe (log entry 8). -/
  | frameNotInCatalog
deriving DecidableEq, Repr

/-- Why the model gives no meaning. -/
inductive Refusal where
  /-- An instruction that has no meaning yet; no arm of `exec` answers it. Safe. -/
  | notModelled (mnemonic : String)
  /-- Raised by `step` when the configuration breaks a constraint of 00_scope.md R5 or 42_message_catalog.md R243:
  "A configuration that breaks a listed constraint is refused". Safe (log entry 4). -/
  | badConfiguration
deriving DecidableEq, Repr

/-- `st.L` at reset (R67). -/
def Latched.reset : Latched where
  tmo := 1
  tbit := 1
  tack := 1
  thalf := 1
  tackhold := 1
  pf := false
  sel := 0

/-- The machine right after reset (R67, 70_reset_and_hazards.md R350 to R352). `h_rdata` is 0 in a reset tick. -/
def State.reset : State where
  ie := false
  pfSel := false
  done := false
  rej := false
  result := 0
  tmo := 0
  timing0 := 0
  timing1 := 0
  anom0 := 0
  anom1 := 0
  mem := []
  busy := false
  op := .none
  role := .none
  hs := .idle
  bitn := 0
  ph := false
  cnt := 0
  offset := 0
  flen := 0
  cidx := none
  shreg := 0
  shadow := []
  latched := Latched.reset
  oe := Lines.released
  prev := Lines.idle
  cfg := Config.atReset
  inputs := []
  tick := 0
  hRdata := some 0

end Sys2Proof.Machine
end

