-- ==== Sys2Proof/Machine/Memory.lean ====
section
/-! DEFINITION. The byte memory and the three byte arrays FBUF, TXPAY and FIELD in it (10_state.md R43 to R45,
20_memory.md R82). -/

namespace Sys2Proof.Machine

/-- What an address that the memory does not list reads as: 0, the reset contents of every byte array (R67). -/
abbrev unlistedByte : Byte := 0#8

/-- One byte of a memory. -/
def Memory.read : Memory → Nat → Byte
  | [], _ => unlistedByte
  | c :: m, a => if c.1 = a then c.2 else Memory.read m a

/-- The memory without any entry for `a`. -/
def Memory.erase (m : Memory) (a : Nat) : Memory := m.filter fun c => c.1 ≠ a

/-- The memory with an entry put before the first larger address. -/
def Memory.place (a : Nat) (v : Byte) : Memory → Memory
  | [] => [(a, v)]
  | c :: m => if a < c.1 then (a, v) :: c :: m else c :: Memory.place a v m

/-- A byte write; writing what an unlisted address reads as removes the entry. -/
def Memory.write (m : Memory) (a : Nat) (v : Byte) : Memory :=
  if v = unlistedByte then m.erase a else Memory.place a v (m.erase a)

/-- Consecutive byte writes from address `a` on. -/
def Memory.writeBytes (m : Memory) (a : Nat) : List Byte → Memory
  | [] => m
  | v :: vs => Memory.writeBytes (m.write a v) (a + 1) vs

/-- The canonical form: addresses strictly rising, no entry that reads as an unlisted address does. -/
def Memory.wf (m : Memory) : Bool :=
  decide (m.Pairwise fun c d => c.1 < d.1) && m.all fun c => c.2 ≠ unlistedByte

/-- The byte address of FBUF[0] (10_state.md R32). -/
abbrev fbufBase : Nat := 0x040

/-- The byte address of TXPAY[0] (R32). -/
abbrev txpayBase : Nat := 0x080

/-- The byte address of FIELD[0] (R32). -/
abbrev fieldBase : Nat := 0x100

/-- FBUF[i]; byte 47 is hard-wired 0 (R43, R48). -/
def State.fbuf (s : State) (i : Nat) : Byte := if i < 47 then s.mem.read (fbufBase + i) else 0

/-- TXPAY[i]; bytes 45 to 47 are hard-wired 0 (R44, R48). -/
def State.txpay (s : State) (i : Nat) : Byte := if i < 45 then s.mem.read (txpayBase + i) else 0

/-- FIELD[k] (R45). -/
def State.field (s : State) (k : Nat) : Byte := if k < 64 then s.mem.read (fieldBase + k) else 0

/-- A whole frame written to FBUF, with 0 in the bytes past its length (R43: 43_host_ops.md R285, 41_frame_codec.md
R212). FBUF[47] is no storage. -/
def Memory.writeFbuf (m : Memory) (f : List Byte) : Memory :=
  m.writeBytes fbufBase ((List.range 47).map fun i => f.getD i 0)

/-- All 64 FIELD bytes written at once (42_message_catalog.md R246). -/
def Memory.writeFields (m : Memory) (fv : List Byte) : Memory :=
  m.writeBytes fieldBase ((List.range 64).map fun j => fv.getD j 0)

/-- The first `n` bytes of the receive assembly buffer, `st.shadow[0 .. n-1]` (R59). -/
def State.shadowBytes (s : State) (n : Nat) : List Byte := (List.range n).map fun i => s.shadow.read i

end Sys2Proof.Machine
end

