-- ==== Sys2Proof/Machine/Updates.lean ====
section
/-! DEFINITION. The named updates of the state. Each says which fields it writes; their one-field lemmas are in
Laws/State.lean. -/

namespace Sys2Proof.Machine

/-- CTRL's two fields (R33). -/
def State.setCtrl (s : State) (a : Bool) (b : Bool) : State :=
  { s with ie := a, pfSel := b }

/-- STATUS.DONE and STATUS.REJ (R35). -/
def State.setFlags (s : State) (a : Bool) (b : Bool) : State :=
  { s with done := a, rej := b }

/-- TMO (R37). -/
def State.setTmo (s : State) (v : Word) : State :=
  { s with tmo := v }

/-- TIMING0 (R38). -/
def State.setTiming0 (s : State) (v : Word) : State :=
  { s with timing0 := v }

/-- TIMING1 (R39). -/
def State.setTiming1 (s : State) (v : Word) : State :=
  { s with timing1 := v }

/-- RESULT, ANOM0 and ANOM1, written together by a completion (R36, R41). -/
def State.setResult (s : State) (r : Word) (a : Word) (b : Word) : State :=
  { s with result := r, anom0 := a, anom1 := b }

/-- The byte arrays (R43 to R45). -/
def State.setMem (s : State) (m : Memory) : State :=
  { s with mem := m }

/-- The handshake's place: `st.hs`, `st.bitn`, `st.ph` (R61). -/
def State.setPlace (s : State) (h : HS) (b : BitVec 3) (p : Bool) : State :=
  { s with hs := h, bitn := b, ph := p }

/-- `st.cnt` (R56). -/
def State.setCnt (s : State) (c : BitVec 32) : State :=
  { s with cnt := c }

/-- `st.offset` (R57). -/
def State.setOffset (s : State) (n : BitVec 6) : State :=
  { s with offset := n }

/-- `st.cidx` and `st.flen` (R57, R58). -/
def State.setFrame (s : State) (k : Option Cmd) (n : BitVec 6) : State :=
  { s with flen := n, cidx := k }

/-- `st.shreg` (R59). -/
def State.setShreg (s : State) (v : Byte) : State :=
  { s with shreg := v }

/-- `st.shadow` (R59). -/
def State.setShadow (s : State) (m : Memory) : State :=
  { s with shadow := m }

/-- `st.oe` (R60). -/
def State.setOe (s : State) (l : Lines) : State :=
  { s with oe := l }

/-- The session that an accepted issue creates (43_host_ops.md R281), DONE cleared. -/
def State.openSession (s : State) (o : Op) (r : Role) (l : Latched) : State :=
  { s with
    done := false, busy := true, op := o, role := r, hs := .idle, bitn := 0,
    ph := false, cnt := 0, offset := 0, flen := 0, cidx := none, latched := l }

/-- The end of a session (60_exceptions.md R315), in handshake state `h`: DONE set, every line released. -/
def State.closeSession (s : State) (h : HS) : State :=
  { s with
    done := true, busy := false, op := .none, role := .none, hs := h, bitn := 0,
    ph := false, cnt := 0, offset := 0, flen := 0, cidx := none, oe := Lines.released }

/-- The end of a tick (70_reset_and_hazards.md R350): the samples go to `st.prev`; the inputs move on. -/
def State.closeTick (s : State) (l : Lines) (r : List TickInput) (n : Nat) (d : Option Word) : State :=
  { s with prev := l, inputs := r, tick := n, hRdata := d }

end Sys2Proof.Machine
end

