-- ==== Sys2Proof/Machine/Flags.lean ====
section
/-! DEFINITION. The register words that the block computes from its state: CTRL, STATUS, LINES, the result word
of a completion, and the interrupt (10_state.md R33 to R47, 60_exceptions.md R310, R316). -/

namespace Sys2Proof.Machine

/-- The outcomes of an operation (60_exceptions.md R310). -/
inductive Completion where
  | ok | timeout | noAck | checksumMismatch | unknownCommand | unexpectedCommand
deriving DecidableEq, Repr

/-- RESULT.ERR (R310). -/
def Completion.code : Completion → BitVec 4
  | .ok => 0
  | .timeout => 1
  | .noAck => 2
  | .checksumMismatch => 3
  | .unknownCommand => 4
  | .unexpectedCommand => 5

/-- STATUS.HS (R35, R53). -/
def HS.code : HS → BitVec 3
  | .idle => 0
  | .start => 1
  | .bit => 2
  | .ack => 3
  | .timedOut => 4

/-- RESULT.CMDIDX of a command index: 15 when none is known (R36, R58). -/
def cidxField : Option Cmd → BitVec 4
  | none => 15
  | some k => k.index

/-- CTRL as it reads (R33). -/
def State.ctrlWord (s : State) : Word := 0#30 ++ BitVec.ofBool s.pfSel ++ BitVec.ofBool s.ie

/-- STATUS as it reads (R35). -/
def State.statusWord (s : State) : Word :=
  0#10 ++ s.offset ++ 0#5 ++ s.bitn ++ BitVec.ofBool s.ph ++ s.hs.code ++ 0#1
    ++ BitVec.ofBool s.rej ++ BitVec.ofBool s.done ++ BitVec.ofBool s.busy

/-- The four lines as a 4-bit field: Sync, Ack, Data, Clock from bit 0 up (R42). -/
def linesField (l : Lines) : BitVec 4 :=
  BitVec.ofBool l.clock ++ BitVec.ofBool l.data ++ BitVec.ofBool l.ack ++ BitVec.ofBool l.sync

/-- LINES as it reads (R42). -/
def State.linesWord (s : State) : Word := 0#20 ++ linesField s.oe ++ 0#4 ++ linesField s.prev

/-- The `irq` port: a level (R47, R320). -/
def State.irq (s : State) : Bool := s.done && s.ie

/-- A SEND session, `sent` of R316. -/
abbrev State.sent (s : State) : Bool := s.op = .send

/-- `NB = st.offset + c`: the frame bytes whose acknowledge completed; `c` is 1 for a completion that comes from a
byte done (R316). -/
abbrev State.nbytes (s : State) (c : BitVec 6) : BitVec 6 := s.offset + c

/-- RESULT.CODE (R316). -/
def State.resultCode (s : State) (c : BitVec 6) : Byte :=
  if s.sent then s.fbuf 0
  else if 1 ≤ (s.nbytes c).toNat then s.shadow.read 0
  else 0

/-- RESULT.AMBIG (R316): a received 0xC0. -/
def State.resultAmbig (s : State) (c : BitVec 6) : Bool :=
  !s.sent && decide (1 ≤ (s.nbytes c).toNat) && decide (s.shadow.read 0 = postflashCode)

/-- RESULT.CMDIDX (R316). -/
def State.resultCmdidx (s : State) : BitVec 4 := if s.sent then s.latched.sel else cidxField s.cidx

/-- `result_word(err, anom)` (R316), in the layout of R36. -/
def State.resultWord (s : State) (err : Completion) (anom : BitVec 45) (c : BitVec 6) : Word :=
  0#2 ++ s.nbytes c ++ 0#4 ++ s.resultCmdidx ++ s.resultCode c ++ 0#2
    ++ BitVec.ofBool (s.resultAmbig c) ++ BitVec.ofBool (decide (anom ≠ 0)) ++ err.code

end Sys2Proof.Machine
end

