-- ==== Sys2Proof/Machine/Operands.lean ====
section
/-! DEFINITION. The operand forms: the host register window read and written by 32-bit words (10_state.md R32,
20_memory.md R80 to R86), the latched parameters of an operation (10_state.md R63), and the resolved line levels
and edges that the handshake reads (R40, R49). -/

namespace Sys2Proof.Machine

/-- The word address `addr[11:2]`; `addr[1:0]` is ignored (R86). -/
abbrev wordIndex (addr : BitVec 12) : Nat := (addr.extractLsb' 2 10).toNat

/-- The word address of CMD (R32). -/
abbrev cmdIndex : Nat := 1

/-- A byte of the window outside the registers: FBUF, TXPAY, FIELD, or 0 where reserved (R32, R46). -/
def State.hostByte (s : State) (a : Nat) : Byte :=
  if fbufBase ≤ a ∧ a < fbufBase + 48 then s.fbuf (a - fbufBase)
  else if txpayBase ≤ a ∧ a < txpayBase + 48 then s.txpay (a - txpayBase)
  else if fieldBase ≤ a ∧ a < fieldBase + 64 then s.field (a - fieldBase)
  else 0

/-- A word of the byte arrays, packed little-endian (R82). -/
def State.bufferWord (s : State) (w : Nat) : Word :=
  s.hostByte (4 * w + 3) ++ s.hostByte (4 * w + 2) ++ s.hostByte (4 * w + 1) ++ s.hostByte (4 * w)

/-- The word at a word address (R32, R80). -/
def State.readWord (s : State) (w : Nat) : Word :=
  match w with
  | 0 => s.ctrlWord
  | 1 => 0
  | 2 => s.statusWord
  | 3 => s.result
  | 4 => s.tmo
  | 5 => s.timing0
  | 6 => s.timing1
  | 7 => s.anom0
  | 8 => s.anom1
  | 9 => s.linesWord
  | w => s.bufferWord w

/-- `MemRead(addr, 4)` (R80): no side effect on any state. -/
def State.hostRead (s : State) (addr : BitVec 12) : Word := s.readWord (wordIndex addr)

/-- The window bytes that a host write stores: TXPAY[0..44] and FIELD (R44, R45, R81). -/
def storable (a : Nat) : Bool :=
  (decide (txpayBase ≤ a) && decide (a < txpayBase + 45)) || (decide (fieldBase ≤ a) && decide (a < fieldBase + 64))

/-- A host write of one byte lane: ignored where the byte is read-only, hard-wired or reserved (R46, R81). -/
def Memory.storeByte (m : Memory) (a : Nat) (v : Byte) : Memory := if storable a then m.write a v else m

/-- A host write of a word of the byte arrays, little-endian (R81, R82). -/
def Memory.storeWord (m : Memory) (w : Nat) (v : Word) : Memory :=
  (((m.storeByte (4 * w) (v.extractLsb' 0 8)).storeByte (4 * w + 1) (v.extractLsb' 8 8)).storeByte
    (4 * w + 2) (v.extractLsb' 16 8)).storeByte (4 * w + 3) (v.extractLsb' 24 8)

/-- A host write at a word address other than CMD's (R81). CMD's is an issue (43_host_ops.md R280). -/
def State.writeWord (s : State) (w : Nat) (v : Word) : State :=
  match w with
  | 0 => s.setCtrl (v.getLsbD 0) (v.getLsbD 1)
  | 1 => s
  | 2 => s.setFlags (s.done && !v.getLsbD 1) (s.rej && !v.getLsbD 2)
  | 3 => s
  | 4 => s.setTmo v
  | 5 => s.setTiming0 v
  | 6 => s.setTiming1 v
  | w => s.setMem (s.mem.storeWord w v)

/-- `eff(v) = max(v, 1)` (00_scope.md R7). -/
def eff {n : Nat} (v : BitVec n) : BitVec n := if v = 0 then 1 else v

/-- The parameters latched at an issue with CMDSEL `sel` (R63). -/
def State.latch (s : State) (sel : BitVec 4) : Latched where
  tmo := eff s.tmo
  tbit := eff (s.timing0.extractLsb' 0 16)
  tack := eff (s.timing0.extractLsb' 16 16)
  thalf := eff (s.timing1.extractLsb' 0 16)
  tackhold := eff (s.timing1.extractLsb' 16 16)
  pf := s.pfSel
  sel := sel

/-- The resolved levels of the lines under two agents' pulls: wired-AND with a pull-up (R40). -/
def resolveLines (own peer : Lines) : Lines where
  sync := !(own.sync || peer.sync)
  ack := !(own.ack || peer.ack)
  data := !(own.data || peer.data)
  clock := !(own.clock || peer.clock)

/-- `fall(Sync)` at the levels `l` (00_scope.md R7, 40_handshake.md R153). -/
def State.syncFell (s : State) (l : Lines) : Bool := s.prev.sync && !l.sync

/-- `fall(Clock)` at the levels `l` (R7). -/
def State.clockFell (s : State) (l : Lines) : Bool := s.prev.clock && !l.clock

end Sys2Proof.Machine
end

