-- ==== Sys2Proof/Machine/Serializer.lean ====
section
/-! DEFINITION. The bit-field serializer: field extraction and insertion, the constant check, and the catalog's
decode and encode functions (42_message_catalog.md R243 to R250). -/

namespace Sys2Proof.Machine

/-- `mask(w) = 2^w - 1` on a byte (00_scope.md R6). -/
def maskBits (w : Nat) : Byte := BitVec.ofNat 8 (2 ^ w - 1)

/-- `field(e, p)` (R121, R247). -/
def fieldOf (e : Entry) (p : List Byte) : Byte := (p.getD e.byte 0 >>> e.lo) &&& maskBits e.width

/-- `extract(k, p)`: 64 values, 0 past the layout (R247). -/
def extract (c : Config) (k : Cmd) (p : List Byte) : List Byte :=
  (List.range 64).map fun j =>
    match (c.layout k)[j]? with
    | some e => fieldOf e p
    | none => 0

/-- One entry's part of `anomaly` (R245): the bit of its payload byte, where its constant differs. -/
def entryAnomaly (p : List Byte) (e : Entry) : BitVec 45 :=
  match e.kind with
  | .const v => if fieldOf e p ≠ v then 1#45 <<< e.byte else 0
  | _ => 0

/-- `anomaly(k, p)`, the constant check (R245). -/
def anomaly (c : Config) (k : Cmd) (p : List Byte) : BitVec 45 :=
  (c.layout k).foldl (fun a e => a ||| entryAnomaly p e) 0

/-- `deserialize(k, p)` (R246). -/
def deserialize (c : Config) (k : Cmd) (p : List Byte) : List Byte × BitVec 45 :=
  (extract c k p, anomaly c k p)

/-- A byte with the bits of `e` replaced by the low bits of `v` (R248). -/
def insertBits (e : Entry) (v b : Byte) : Byte :=
  (b &&& ~~~(maskBits e.width <<< e.lo)) ||| ((v &&& maskBits e.width) <<< e.lo)

/-- The payload with one entry's field inserted (R248). -/
def insertField (e : Entry) (v : Byte) (p : List Byte) : List Byte :=
  p.set e.byte (insertBits e v (p.getD e.byte 0))

/-- The entries `es`, the first with field value `fv 0`, inserted in order (R248). -/
def insertFields : List Entry → (Nat → Byte) → List Byte → List Byte
  | [], _, p => p
  | e :: es, fv, p => insertFields es (fun j => fv (j + 1)) (insertField e (fv 0) p)

/-- `serialize(k)` of a raw payload and field values (R248). -/
def serializeFrom (c : Config) (k : Cmd) (fv : Nat → Byte) (p : List Byte) : List Byte :=
  insertFields (c.layout k) fv p

/-- `TXPAY[0 .. LEN[k]-1]` (R248). -/
def State.txpayBytes (s : State) (k : Cmd) : List Byte := (List.range k.len).map s.txpay

/-- `serialize(k)`, the catalog's encode function, over TXPAY and FIELD (R248). -/
def State.serialize (s : State) (k : Cmd) : List Byte := serializeFrom s.cfg k s.field (s.txpayBytes k)

end Sys2Proof.Machine
end

