-- ==== Sys2Proof/Machine/Ops.lean ====
section
/-! DEFINITION. The shared operations: the two wait forms (00_scope.md R9), the completion procedure, the block's one
exception entry (60_exceptions.md R315), with the host's acknowledge beside it (R318), the issue of a host operation
(43_host_ops.md R280 to R285), and the frame done of a received frame (41_frame_codec.md R212). -/

namespace Sys2Proof.Machine

/-- The outcome of a step of this machine. -/
abbrev Result := Host.Outcome State Fault Refusal

/-- Go on from a next state; a stop stays. -/
def andThen (r : Result) (f : State → Result) : Result :=
  match r with
  | .next s => f s
  | .fault e => .fault e
  | .refused e => .refused e

/-- `WAIT(cond, L, ok, fail)` (R9). -/
def waitFor (cond : Bool) (bound : Nat) (ok fail : State → Result) (s : State) : Result :=
  if cond then ok (s.setCnt 0)
  else if bound ≤ s.cnt.toNat + 1 then fail s
  else .next (s.setCnt (s.cnt + 1))

/-- `HOLD(L, done)` (R9). -/
def holdFor (bound : Nat) (done : State → Result) (s : State) : Result :=
  if bound ≤ s.cnt.toNat + 1 then done (s.setCnt 0) else .next (s.setCnt (s.cnt + 1))

/-- `complete(err, anom)` (R315): the single end of every session. `c` is 1 when it comes from a byte done (R316). -/
def complete (err : Completion) (anom : BitVec 45) (c : BitVec 6) (s : State) : State :=
  (s.setResult (s.resultWord err anom c) (anom.extractLsb' 0 32) ((anom.extractLsb' 32 13).setWidth 32)).closeSession
    (if err = .timeout then .timedOut else .idle)

/-- The host's acknowledge of a completion, ACKDONE (60_exceptions.md R318, 30_encoding.md R123): the block has no
trap return, and this write restores nothing. -/
def acknowledge (s : State) : State := s.writeWord 2 2#32

/-- The rejection of a CMD write (43_host_ops.md R282). -/
def reject (s : State) : State := s.setFlags s.done true

/-- `send_setup(k)` (43_host_ops.md R285): the frame is encoded into FBUF at issue. -/
def sendSetup (k : Cmd) (s : State) : State :=
  (s.setMem (s.mem.writeFbuf (encodeFrame s.cfg k (s.serialize k)))).setFrame (some k) (BitVec.ofNat 6 k.flen)

/-- `accept(1, sel)` (R281). -/
def acceptListen (sel : BitVec 4) (s : State) : State := s.openSession .listen .observer (s.latch sel)

/-- `accept(2, sel)` with its `send_setup` (R281, R285). -/
def acceptSend (sel : BitVec 4) (k : Cmd) (s : State) : State :=
  sendSetup k (s.openSession .send .sender (s.latch sel))

/-- `accept(3, sel)` (R281). -/
def acceptReceive (sel : BitVec 4) (s : State) : State := s.openSession .receive .receiver (s.latch sel)

/-- `issue(v)` with OP `op` and CMDSEL `sel` (R280): NOP first, then the rejections, then the acceptance. -/
def issue (op : Nat) (sel : BitVec 4) (s : State) : State :=
  if op = 0 then s
  else if s.busy ∨ 4 ≤ op then reject s
  else
    match op, Cmd.ofIndex sel with
    | 1, _ => acceptListen sel s
    | 2, some k => acceptSend sel k s
    | 3, some _ => acceptReceive sel s
    | _, _ => reject s

/-- A receiving session: LISTEN or RECEIVE (R284, R286). -/
def State.receiving (s : State) : Bool := s.busy && (s.op = .listen || s.op = .receive)

/-- The state of a session that has received the whole frame `f` of command `k`: its bytes stand in `st.shadow`, and
the acknowledge of the last one completes in this tick (40_handshake.md R162, R166). -/
def State.holding (s : State) (k : Cmd) (f : List Byte) : State :=
  ((s.setShadow (s.shadow.writeBytes 0 f)).setFrame (some k) (BitVec.ofNat 6 k.flen)).setOffset
    (BitVec.ofNat 6 (k.flen - 1))

/-- `frame_done` (41_frame_codec.md R212) for the frame `[CODE[k]] || p || [ck]`: FBUF always, then the checksum,
then RECEIVE's command check, then the decoded fields. -/
def frameDone (k : Cmd) (p : List Byte) (ck : Byte) (s : State) : State :=
  let t := s.setMem (s.mem.writeFbuf (frameBytes s.cfg k p ck))
  if s.cfg.checksum (s.cfg.code k :: p) ≠ ck then complete .checksumMismatch 0 1 t
  else if s.op = .receive ∧ s.latched.sel ≠ k.index then complete .unexpectedCommand 0 1 t
  else complete .ok (deserialize s.cfg k p).2 1 (t.setMem (t.mem.writeFields (deserialize s.cfg k p).1))

/-- What the block does with a wire frame whose last byte is acknowledged in this tick: a receiving session takes
it (R212); any other block does not look at it (40_handshake.md R167, R170). Log entry 7. -/
def receiveFrame (k : Cmd) (p : List Byte) (ck : Byte) (s : State) : Result :=
  .next (if s.receiving then frameDone k p ck (s.holding k (frameBytes s.cfg k p ck)) else s)

end Sys2Proof.Machine
end

