-- ==== Sys2Proof/Machine/HostOps.lean ====
section
/-! DEFINITION. The meanings of the ten CMD rows (43_host_ops.md R280 to R286, 30_encoding.md R111, R113). The
ignored bits never change the meaning (R111). The state is the one at the start of the tick of the CMD write. -/

namespace Sys2Proof.Machine

/-- NOP (R283): no operation, even while busy. -/
def execNop (_ign : BitVec 5) (sel : BitVec 4) (_high : BitVec 20) (s : State) : Result :=
  .next (issue 0 sel s)

/-- LISTEN (R284): passive receive; CMDSEL is latched but not used. -/
def execListen (_ign : BitVec 5) (sel : BitVec 4) (_high : BitVec 20) (s : State) : Result :=
  .next (issue 1 sel s)

/-- SEND (R285): active send of the frame of command CMDSEL. -/
def execSend (_ign : BitVec 5) (sel : BitVec 4) (_high : BitVec 20) (s : State) : Result :=
  .next (issue 2 sel s)

/-- RECEIVE (R286): active receive, expected command CMDSEL. -/
def execReceive (_ign : BitVec 5) (sel : BitVec 4) (_high : BitVec 20) (s : State) : Result :=
  .next (issue 3 sel s)

/-- RESERVED_OP4 (R111): rejected (R282). -/
def execReservedOp4 (_ign : BitVec 5) (sel : BitVec 4) (_high : BitVec 20) (s : State) : Result :=
  .next (issue 4 sel s)

/-- RESERVED_OP5 (R111): rejected (R282). -/
def execReservedOp5 (_ign : BitVec 5) (sel : BitVec 4) (_high : BitVec 20) (s : State) : Result :=
  .next (issue 5 sel s)

/-- RESERVED_OP6 (R111): rejected (R282). -/
def execReservedOp6 (_ign : BitVec 5) (sel : BitVec 4) (_high : BitVec 20) (s : State) : Result :=
  .next (issue 6 sel s)

/-- RESERVED_OP7 (R111): rejected (R282). -/
def execReservedOp7 (_ign : BitVec 5) (sel : BitVec 4) (_high : BitVec 20) (s : State) : Result :=
  .next (issue 7 sel s)

/-- SEND_RESERVED_CMDSEL (R113): rejected (R282). -/
def execSendReservedCmdsel (_ign : BitVec 5) (selLo : BitVec 2) (_high : BitVec 20) (s : State) : Result :=
  .next (issue 2 (reservedSel selLo) s)

/-- RECEIVE_RESERVED_CMDSEL (R113): rejected (R282). -/
def execReceiveReservedCmdsel (_ign : BitVec 5) (selLo : BitVec 2) (_high : BitVec 20) (s : State) : Result :=
  .next (issue 3 (reservedSel selLo) s)

end Sys2Proof.Machine
end

