-- ==== Sys2Proof/Machine/WireFrames.lean ====
section
/-! DEFINITION. The meanings of the twelve wire commands (42_message_catalog.md R230 to R242): what the block does in
the tick in which the frame's last byte is acknowledged (log entry 7). -/

namespace Sys2Proof.Machine

/-- Init_0 (R231). -/
def execInit0 (payload : List Byte) (checksum : Byte) (s : State) : Result :=
  receiveFrame .init0 payload checksum s

/-- Init_1 (R232). -/
def execInit1 (payload : List Byte) (checksum : Byte) (s : State) : Result :=
  receiveFrame .init1 payload checksum s

/-- Init_2 (R233). -/
def execInit2 (payload : List Byte) (checksum : Byte) (s : State) : Result :=
  receiveFrame .init2 payload checksum s

/-- Flash_Setting (R234). -/
def execFlashSetting (payload : List Byte) (checksum : Byte) (s : State) : Result :=
  receiveFrame .flashSetting payload checksum s

/-- Cam_Setting (R235). -/
def execCamSetting (payload : List Byte) (checksum : Byte) (s : State) : Result :=
  receiveFrame .camSetting payload checksum s

/-- Postflash_1 (R236). -/
def execPostflash1 (payload : List Byte) (checksum : Byte) (s : State) : Result :=
  receiveFrame .postflash1 payload checksum s

/-- Postflash_2 (R237). -/
def execPostflash2 (payload : List Byte) (checksum : Byte) (s : State) : Result :=
  receiveFrame .postflash2 payload checksum s

/-- AF_Illumination (R238). -/
def execAfIllumination (payload : List Byte) (checksum : Byte) (s : State) : Result :=
  receiveFrame .afIllumination payload checksum s

/-- Red_Eye_Reduction (R239). -/
def execRedEyeReduction (payload : List Byte) (checksum : Byte) (s : State) : Result :=
  receiveFrame .redEyeReduction payload checksum s

/-- Modelling_Light (R240). -/
def execModellingLight (payload : List Byte) (checksum : Byte) (s : State) : Result :=
  receiveFrame .modellingLight payload checksum s

/-- Preflash_1 (R241). -/
def execPreflash1 (payload : List Byte) (checksum : Byte) (s : State) : Result :=
  receiveFrame .preflash1 payload checksum s

/-- Preflash_2 (R242). -/
def execPreflash2 (payload : List Byte) (checksum : Byte) (s : State) : Result :=
  receiveFrame .preflash2 payload checksum s

end Sys2Proof.Machine
end

