-- ==== Sys2Proof/Machine/Dispatch.lean ====
section
/-! DEFINITION. The meaning of every instruction, one arm each. -/

namespace Sys2Proof.Machine

def exec (i : Instr) (s : State) : Host.Outcome State Fault Refusal :=
  match i with
  | .nop ign sel high => Sys2Proof.Machine.execNop ign sel high s
  | .listen ign sel high => Sys2Proof.Machine.execListen ign sel high s
  | .send ign sel high => Sys2Proof.Machine.execSend ign sel high s
  | .receive ign sel high => Sys2Proof.Machine.execReceive ign sel high s
  | .reservedOp4 ign sel high => Sys2Proof.Machine.execReservedOp4 ign sel high s
  | .reservedOp5 ign sel high => Sys2Proof.Machine.execReservedOp5 ign sel high s
  | .reservedOp6 ign sel high => Sys2Proof.Machine.execReservedOp6 ign sel high s
  | .reservedOp7 ign sel high => Sys2Proof.Machine.execReservedOp7 ign sel high s
  | .sendReservedCmdsel ign selLo high => Sys2Proof.Machine.execSendReservedCmdsel ign selLo high s
  | .receiveReservedCmdsel ign selLo high => Sys2Proof.Machine.execReceiveReservedCmdsel ign selLo high s
  | .init0 payload checksum => Sys2Proof.Machine.execInit0 payload checksum s
  | .init1 payload checksum => Sys2Proof.Machine.execInit1 payload checksum s
  | .init2 payload checksum => Sys2Proof.Machine.execInit2 payload checksum s
  | .flashSetting payload checksum => Sys2Proof.Machine.execFlashSetting payload checksum s
  | .camSetting payload checksum => Sys2Proof.Machine.execCamSetting payload checksum s
  | .postflash1 payload checksum => Sys2Proof.Machine.execPostflash1 payload checksum s
  | .postflash2 payload checksum => Sys2Proof.Machine.execPostflash2 payload checksum s
  | .afIllumination payload checksum => Sys2Proof.Machine.execAfIllumination payload checksum s
  | .redEyeReduction payload checksum => Sys2Proof.Machine.execRedEyeReduction payload checksum s
  | .modellingLight payload checksum => Sys2Proof.Machine.execModellingLight payload checksum s
  | .preflash1 payload checksum => Sys2Proof.Machine.execPreflash1 payload checksum s
  | .preflash2 payload checksum => Sys2Proof.Machine.execPreflash2 payload checksum s

end Sys2Proof.Machine
end

