-- ==== Sys2Proof/Machine/Handshake.lean ====
section
/-! DEFINITION. The Transfer Handshake: one tick of a session in each role (40_handshake.md R150 to R172). `l` is the
resolved levels of the tick. Every branch reads the state at the start of the tick (00_scope.md R7); the writes of
the host access of the same tick touch nothing that a branch reads. -/

namespace Sys2Proof.Machine

/-- Bit `i` of a byte in transfer order: position 0 is the most significant bit (30_encoding.md R118). -/
def wireBit (b : Byte) (i : Nat) : Bool := b.getLsbD (7 - i)

/-- The bounds of the waits and holds, in ticks (R63). -/
abbrev State.tmoBound (s : State) : Nat := s.latched.tmo.toNat

/-- TBIT in ticks (R38). -/
abbrev State.tbitBound (s : State) : Nat := s.latched.tbit.toNat

/-- TACK in ticks (R38). -/
abbrev State.tackBound (s : State) : Nat := s.latched.tack.toNat

/-- THALF in ticks (R39). -/
abbrev State.thalfBound (s : State) : Nat := s.latched.thalf.toNat

/-- TACKHOLD in ticks (R39). -/
abbrev State.tackholdBound (s : State) : Nat := s.latched.tackhold.toNat

/-- A completion with no anomaly. -/
def finish (err : Completion) (c : BitVec 6) (s : State) : Result := .next (complete err 0 c s)

/-- Load the byte `b` for its first cell: Data carries bit 7 (R155, R159). -/
def startByte (b : Byte) (s : State) : State :=
  ((s.setShreg b).setPlace .bit 0 false).setOe { s.oe with data := !wireBit b 0 }

/-- R154, startTransfer(SENDER): wait for an idle bus, then pull Sync. -/
def senderIdle (l : Lines) (s : State) : Result :=
  waitFor (l.sync && l.ack && l.data && l.clock) s.tmoBound
    (fun t => .next ((t.setOe { t.oe with sync := true }).setPlace .start t.bitn t.ph))
    (finish .timeout 0) s

/-- R155, the setup after the start. -/
def senderStart (s : State) : Result :=
  holdFor s.thalfBound (fun t => .next (startByte (t.fbuf t.offset.toNat) t)) s

/-- R156, first half of a bit cell: Clock released, Data carries the bit. -/
def senderBitHigh (s : State) : Result :=
  holdFor s.thalfBound (fun t => .next ((t.setOe { t.oe with clock := true }).setPlace t.hs t.bitn true)) s

/-- R156, the end of a cell: Clock released, and the next cell's bit, or the byte's end. -/
def senderCellDone (s : State) : State :=
  if s.bitn.toNat < 7 then
    (s.setOe { s.oe with clock := false, data := !wireBit s.shreg (s.bitn.toNat + 1) }).setPlace .bit (s.bitn + 1) false
  else
    (s.setOe { s.oe with clock := false, data := false }).setPlace .ack s.bitn false

/-- R156, second half of a bit cell: Clock pulled low. -/
def senderBitLow (s : State) : Result := holdFor s.thalfBound (fun t => .next (senderCellDone t)) s

/-- R159, sender byte done: the next byte, or endTransfer. -/
def senderByteDone (s : State) : Result :=
  if s.offset + 1 = s.flen then finish .ok 1 s
  else .next (startByte (s.fbuf (s.offset.toNat + 1)) (s.setOffset (s.offset + 1)))

/-- R157, wait for the acknowledge. -/
def senderAckLow (l : Lines) (s : State) : Result :=
  waitFor (!l.ack) s.tackBound (fun t => .next (t.setPlace t.hs t.bitn true)) (finish .noAck 0) s

/-- R158, wait for the acknowledge to end. -/
def senderAckHigh (l : Lines) (s : State) : Result :=
  waitFor l.ack s.tackBound senderByteDone (finish .timeout 0) s

/-- One tick of the SENDER role (R151). A busy session is never in TIMEDOUT (R317): no branch then. -/
def senderStep (l : Lines) (s : State) : Result :=
  match s.hs, s.ph with
  | .idle, _ => senderIdle l s
  | .start, _ => senderStart s
  | .bit, false => senderBitHigh s
  | .bit, true => senderBitLow s
  | .ack, false => senderAckLow l s
  | .ack, true => senderAckHigh l s
  | .timedOut, _ => .next s

/-- R160, startTransfer(RECEIVER or OBSERVER): await the start condition. -/
def awaitStart (l : Lines) (s : State) : Result :=
  waitFor (s.syncFell l) s.tmoBound (fun t => .next (t.setPlace .start 0 t.ph)) (finish .timeout 0) s

/-- R162, sample a bit at the levels `l`. -/
def sample (l : Lines) (s : State) : State :=
  let v : Byte := s.shreg.extractLsb' 0 7 ++ BitVec.ofBool l.data
  if s.hs = .start ∨ s.bitn.toNat < 7 then (s.setShreg v).setPlace .bit (s.bitn + 1) s.ph
  else ((s.setShreg v).setShadow (s.shadow.write s.offset.toNat v)).setPlace .ack s.bitn false

/-- R161, wait for a cell. -/
def awaitCell (l : Lines) (s : State) : Result :=
  waitFor (s.clockFell l) s.tbitBound (fun t => .next (sample l t)) (finish .timeout 0) s

/-- The frame that a receiving session has in `st.shadow`, read as its command's instruction (R209, R212). -/
def State.receivedInstr (s : State) : Except Reject Instr :=
  match s.cidx with
  | none => .error .emptyFrame
  | some k => decodeFrameAs s.cfg k (s.shadowBytes s.flen.toNat)

/-- R212, frame done: the frame's instruction runs. The fault is for states that the spec rules out (log entry 8). -/
def runReceived (s : State) : Result :=
  match s.receivedInstr with
  | .ok i => exec i s
  | .error _ => .fault .frameNotInCatalog

/-- The next byte of the frame begins at BIT(0), the start's level form still holding (R166, R171). -/
def nextByte (s : State) : Result := .next ((s.setOffset (s.offset + 1)).setPlace .bit 0 false)

/-- R166 with n = 1, the command byte: its length is looked up, or the command is unknown (R204, R207). -/
def commandByteDone (s : State) : Result :=
  match lookup s.cfg s.op s.latched.sel s.latched.pf (s.shadow.read 0) with
  | none => finish .unknownCommand 1 s
  | some k => nextByte (s.setFrame (some k) (BitVec.ofNat 6 k.flen))

/-- R166, receive-side byte done. -/
def rxByteDone (s : State) : Result :=
  if s.offset + 1 = 1 then commandByteDone s
  else if s.offset + 1 = s.flen then runReceived s
  else nextByte s

/-- R163, wait for Clock released after bit 7, then pull Ack. -/
def receiverAckStart (l : Lines) (s : State) : Result :=
  waitFor l.clock s.tbitBound
    (fun t => .next ((t.setOe { t.oe with ack := true }).setPlace t.hs t.bitn true)) (finish .timeout 0) s

/-- R163, hold Ack, release it, byte done. -/
def receiverAckHold (s : State) : Result :=
  holdFor s.tackholdBound (fun t => rxByteDone (t.setOe { t.oe with ack := false })) s

/-- One tick of the RECEIVER role (R151). -/
def receiverStep (l : Lines) (s : State) : Result :=
  match s.hs, s.ph with
  | .idle, _ => awaitStart l s
  | .start, _ => awaitCell l s
  | .bit, _ => awaitCell l s
  | .ack, false => receiverAckStart l s
  | .ack, true => receiverAckHold s
  | .timedOut, _ => .next s

/-- R164, the observed receiver's Ack goes low. -/
def observerAckLow (l : Lines) (s : State) : Result :=
  waitFor (!l.ack) s.tackBound (fun t => .next (t.setPlace t.hs t.bitn true)) (finish .noAck 0) s

/-- R164, the observed receiver's Ack goes high again. DEDUCED, log entry 23: the observer's wait for the next byte's
first Clock fall begins with the tick after the one in which it sees Ack high, so by R160 to R166 it lasts `thalf_S + 1`
ticks;
70_reset_and_hazards.md R354(c) asks `tbit_O >= thalf_S + 2` of it, one tick more. The model follows R160 to R166. -/
def observerAckHigh (l : Lines) (s : State) : Result :=
  waitFor l.ack s.tackBound rxByteDone (finish .timeout 0) s

/-- One tick of the OBSERVER role (R151). -/
def observerStep (l : Lines) (s : State) : Result :=
  match s.hs, s.ph with
  | .idle, _ => awaitStart l s
  | .start, _ => awaitCell l s
  | .bit, _ => awaitCell l s
  | .ack, false => observerAckLow l s
  | .ack, true => observerAckHigh l s
  | .timedOut, _ => .next s

/-- The handshake step of a busy block (R151). A session without a role exists in no run (R52). -/
def handshake (l : Lines) (s : State) : Result :=
  match s.role with
  | .none => .next s
  | .sender => senderStep l s
  | .receiver => receiverStep l s
  | .observer => observerStep l s

end Sys2Proof.Machine
end

