-- ==== Sys2Proof/Machine/Tick.lean ====
section
/-! DEFINITION. One tick (70_reset_and_hazards.md R350): reset, the host access and the handshake step, all reading
the state at the start of the tick, with the priorities of 20_memory.md R85; and the placing of an instruction
where the next tick runs it. -/

namespace Sys2Proof.Machine

/-- The inputs of the coming tick: the first listed ones, or unconstrained ones (log entry 5). -/
def State.nextInput (s : State) : TickInput :=
  match s.inputs with
  | [] => Config.freeInput s.tick
  | i :: _ => i

/-- The host access of a tick (20_memory.md R80, R81): a write to CMD runs the word's instruction. -/
def hostAccess (h : HostAccess) (s : State) : Result :=
  match h with
  | .idle => .next s
  | .read _ => .next s
  | .write a v => if wordIndex a = cmdIndex then exec (decodeCmd v) s else .next (s.writeWord (wordIndex a) v)

/-- The word that a host access puts on `h_rdata` (R80), from the state at the start of the tick. -/
def readData (h : HostAccess) (s : State) : Option Word :=
  match h with
  | .idle => none
  | .read a => some (s.hostRead a)
  | .write _ _ => none

/-- A tick with `rst` = 1 (R350, R351): every state element takes its reset value; the configuration is a parameter,
and the inputs move on. -/
def resetTick (s : State) : State :=
  { State.reset with cfg := s.cfg, inputs := s.inputs.tail, tick := s.tick + 1 }

/-- A tick with `rst` = 0 (R350). The host's writes are put down first and the block's after them, so that the
block's FIELD write and its DONE set win (R85); a session that starts in this tick first runs in the next (R281), so
the handshake runs exactly when the block was busy at the start. Log entry 1. -/
def runTick (i : TickInput) (s : State) : Result :=
  let l := resolveLines s.oe i.peer
  andThen (hostAccess i.host s) fun t =>
    andThen (if s.busy then handshake l t else .next t) fun u =>
      .next (u.closeTick l s.inputs.tail (s.tick + 1) (readData i.host s))

/-- A configuration that breaks a constraint has no meaning (00_scope.md R5, R243; log entry 4). -/
def checked (s : State) (r : Result) : Result := if s.cfg.wf then r else .refused .badConfiguration

/-- One tick on given inputs. -/
def tickWith (i : TickInput) (s : State) : Result :=
  if i.rst then checked s (.next (resetTick s)) else checked s (runTick i s)

/-- One tick. -/
def oneTick (s : State) : Result := tickWith s.nextInput s

/-- The state with a tick's inputs put before the listed ones. -/
def State.withInput (s : State) (i : TickInput) : State := { s with inputs := i :: s.inputs }

/-- A host write to CMD in the coming tick (30_encoding.md R110). -/
def State.withCmd (s : State) (v : Word) : State := s.withInput ⟨false, .write 0x004#12 v, Lines.released⟩

/-- A LISTEN session that has received the frame `bytes` of command `k` but for the end of its last acknowledge,
which the coming tick brings (40_handshake.md R164). -/
def State.withFrame (s : State) (k : Cmd) (bytes : List Byte) : State :=
  { s.withInput ⟨false, .idle, Lines.released⟩ with
    busy := true, op := .listen, role := .observer, hs := .ack, bitn := 7, ph := true, cnt := 0,
    offset := BitVec.ofNat 6 (k.flen - 1), flen := BitVec.ofNat 6 k.flen, cidx := some k,
    shadow := s.shadow.writeBytes 0 bytes, oe := Lines.released }

/-- The command of a frame instruction, with its operands. -/
def frameOf : Instr → Option (Cmd × List Byte × Byte)
  | .init0 p ck => some (.init0, p, ck)
  | .init1 p ck => some (.init1, p, ck)
  | .init2 p ck => some (.init2, p, ck)
  | .flashSetting p ck => some (.flashSetting, p, ck)
  | .camSetting p ck => some (.camSetting, p, ck)
  | .postflash1 p ck => some (.postflash1, p, ck)
  | .postflash2 p ck => some (.postflash2, p, ck)
  | .afIllumination p ck => some (.afIllumination, p, ck)
  | .redEyeReduction p ck => some (.redEyeReduction, p, ck)
  | .modellingLight p ck => some (.modellingLight, p, ck)
  | .preflash1 p ck => some (.preflash1, p, ck)
  | .preflash2 p ck => some (.preflash2, p, ck)
  | .nop _ _ _ => none
  | .listen _ _ _ => none
  | .send _ _ _ => none
  | .receive _ _ _ => none
  | .reservedOp4 _ _ _ => none
  | .reservedOp5 _ _ _ => none
  | .reservedOp6 _ _ _ => none
  | .reservedOp7 _ _ _ => none
  | .sendReservedCmdsel _ _ _ => none
  | .receiveReservedCmdsel _ _ _ => none

/-- The state in which the coming tick runs the instruction `i`: a CMD row by the host's write, a wire row by the
last acknowledge of an observed frame (log entry 11). -/
def State.withInstr (s : State) (i : Instr) : State :=
  match frameOf i with
  | some (k, p, ck) => s.withFrame k (frameBytes s.cfg k p ck)
  | none =>
    match encode s.cfg i with
    | .cmd w => s.withCmd w
    | .frame _ => s

end Sys2Proof.Machine
end

