-- ==== Sys2Proof/Machine/Step.lean ====
section
/-! DEFINITION. The step: one tick of the block (70_reset_and_hazards.md R350), and the placing of a table word. -/

namespace Sys2Proof.Machine

/-- One model step is one tick (00_scope.md R8). -/
def step (s : State) : Host.Outcome State Fault Refusal := oneTick s

/-- `s` with the instruction of a table word placed where the next step runs it (log entry 11). -/
def State.withFetchWord (s : State) (nbits w : Nat) : State :=
  match decodeTableWord nbits w with
  | none => s
  | some i => s.withInstr i

end Sys2Proof.Machine
end

