-- ==== Sys2Proof/Machine/Bus.lean ====
section
/-! DEFINITION. Several blocks of this spec on the same four lines (60_exceptions.md R326, 70_reset_and_hazards.md
R354): the lines are wired-AND (10_state.md R40), so each block's peer pulls what any other agent pulls. No
instruction uses this file; it composes whole machines. -/

namespace Sys2Proof.Machine

/-- What two agents pull together. -/
def unionPulls (a b : Lines) : Lines :=
  ⟨a.sync || b.sync, a.ack || b.ack, a.data || b.data, a.clock || b.clock⟩

/-- What some agents pull together, besides the pulls `outside` of any foreign agent. -/
def busPulls (outside : Lines) (blocks : List State) : Lines := blocks.foldl (fun l s => unionPulls l s.oe) outside

/-- The levels that every agent on the lines sees (R40: the same for every agent). -/
def busLevels (outside : Lines) (blocks : List State) : Lines :=
  resolveLines Lines.released (busPulls outside blocks)

/-- One tick of a block on the shared lines, with its own host's access. -/
def busMember (pulls : Lines) (s : State) (h : HostAccess) : Result :=
  step (s.withInput ⟨false, h, pulls⟩)

/-- One tick of all blocks on the lines, each with its host's access; `none` if one of them stops. -/
def busTick (outside : Lines) (blocks : List State) (hosts : List HostAccess) : Option (List State) :=
  (blocks.zip hosts).mapM fun b =>
    match busMember (busPulls outside blocks) b.1 b.2 with
    | .next t => some t
    | .fault _ => none
    | .refused _ => none

/-! The conditions of R354 on the latched values of one sender, one receiver and one optional observer, as the rule
states them. No tick reads them: they say which settings its link takes a frame with. -/

/-- The bound that R354 asks of a wait for Clock beside the sender `snd`. -/
def clockNeed (snd : Latched) : Nat := max (2 * snd.thalf.toNat) (snd.thalf.toNat + 2)

/-- R354(a), the receiver against the sender. -/
def receiverKeepsUp (snd rcv : Latched) : Bool := decide (clockNeed snd ≤ rcv.tbit.toNat)

/-- R354(b), the sender against the receiver. -/
def senderWaitsEnough (snd rcv : Latched) : Bool := decide (max 2 rcv.tackhold.toNat ≤ snd.tack.toNat)

/-- R354(c), the observer against both. The rule asks one tick more of `tbit` at `thalf_S` = 1 than the waits of
40_handshake.md R161 and R164 come to (log entry 23). -/
def observerKeepsUp (snd rcv obs : Latched) : Bool :=
  decide (clockNeed snd ≤ obs.tbit.toNat ∧ max (snd.thalf.toNat + 1) rcv.tackhold.toNat ≤ obs.tack.toNat)

/-- R354, all of its conditions. -/
def linkCompatible (snd rcv : Latched) (obs : Option Latched) : Bool :=
  receiverKeepsUp snd rcv && senderWaitsEnough snd rcv &&
    match obs with
    | none => true
    | some o => observerKeepsUp snd rcv o

end Sys2Proof.Machine
end

