-- ==== Sys2Proof/Machine/Formulas.lean ====
section
/-! DEFINITION. The scaled physical quantities (42_message_catalog.md R251 to R265): reference functions over the
reals, for the host and for proofs. The block carries raw bytes and never computes them (R251), so nothing of the
step uses this file; the reals make it noncomputable. -/

namespace Sys2Proof.Machine

/-- The decoded value of an EXPOSURE byte: the bulb sentinel, or a time in seconds (R254). -/
inductive ExposureTime where
  | bulb
  | seconds (t : ℝ)

/-- The exponent form shared by the formulas: 2 to the power `y`. -/
noncomputable def pow2 (y : ℝ) : ℝ := (2 : ℝ) ^ y

/-- POWER, the flash power fraction (R252). -/
noncomputable def powerFraction (x : Byte) : ℝ := pow2 (-(x.toNat : ℝ) / 6)

/-- ISO (R253). -/
noncomputable def isoValue (x : Byte) : ℝ := 100 * pow2 (((x.toNat : ℝ) - 30) / 6)

/-- The raw byte of bulb mode (R254). -/
abbrev bulbByte : Byte := 128#8

/-- EXPOSURE, the exposure time (R254): 128 is bulb, not a time. -/
noncomputable def exposureTime (x : Byte) : ExposureTime :=
  if x = bulbByte then .bulb else .seconds (pow2 (-(x.toNat : ℝ) / 6))

/-- FSTOP, the aperture (R255). -/
noncomputable def fstopValue (x : Byte) : ℝ := pow2 ((x.toNat : ℝ) / 12)

/-- FOCAL, the focal length in mm (R256); 55.4 is 277/5. -/
noncomputable def focalLength (x : Byte) : ℝ := pow2 (((x.toNat : ℝ) + 277 / 5) / 24)

/-- DISTANCE, the focus distance in metres (R257). -/
noncomputable def focusDistance (x : Byte) : ℝ := pow2 (((x.toNat : ℝ) - 80) / 6)

/-- `clamp(round(y))` as an integer: to the nearest, a tie goes up, into 0..255 (R258). -/
noncomputable def roundClamp (y : ℝ) : ℤ := min 255 (max 0 ⌊y + 1 / 2⌋)

/-- The raw byte of an unrounded value (R258). -/
noncomputable def encodeRaw (y : ℝ) : Byte := BitVec.ofInt 8 (roundClamp y)

/-- An encode on the positive reals; a value that is not positive is refused and has no result (R258, 93 U12). -/
noncomputable def encodeWith (inv : ℝ → ℝ) (v : ℝ) : Option Byte := if 0 < v then some (encodeRaw (inv v)) else none

/-- The inverse of POWER (R259). -/
noncomputable def powerInverse (v : ℝ) : ℝ := -6 * Real.logb 2 v

/-- The inverse of ISO (R260). -/
noncomputable def isoInverse (v : ℝ) : ℝ := 30 + 6 * Real.logb 2 (v / 100)

/-- The inverse of EXPOSURE on a time (R261). -/
noncomputable def exposureInverse (t : ℝ) : ℝ := -6 * Real.logb 2 t

/-- The inverse of FSTOP (R262). -/
noncomputable def fstopInverse (v : ℝ) : ℝ := 12 * Real.logb 2 v

/-- The inverse of FOCAL (R263). -/
noncomputable def focalInverse (v : ℝ) : ℝ := 24 * Real.logb 2 v - 277 / 5

/-- The inverse of DISTANCE (R264). -/
noncomputable def distanceInverse (v : ℝ) : ℝ := 80 + 6 * Real.logb 2 v

/-- POWER encode (R259). -/
noncomputable def encodePower (v : ℝ) : Option Byte := encodeWith powerInverse v

/-- ISO encode (R260). -/
noncomputable def encodeIso (v : ℝ) : Option Byte := encodeWith isoInverse v

/-- A time's raw byte: where it would be the bulb sentinel, the neighbour on its side (R261). -/
noncomputable def exposureRaw (y : ℝ) : Byte :=
  if encodeRaw y = bulbByte then (if y < 128 then 127#8 else 129#8) else encodeRaw y

/-- EXPOSURE encode (R261). -/
noncomputable def encodeExposure : ExposureTime → Option Byte
  | .bulb => some bulbByte
  | .seconds t => if 0 < t then some (exposureRaw (exposureInverse t)) else none

/-- FSTOP encode (R262). -/
noncomputable def encodeFstop (v : ℝ) : Option Byte := encodeWith fstopInverse v

/-- FOCAL encode (R263). -/
noncomputable def encodeFocal (v : ℝ) : Option Byte := encodeWith focalInverse v

/-- DISTANCE encode (R264). -/
noncomputable def encodeDistance (v : ℝ) : Option Byte := encodeWith distanceInverse v

end Sys2Proof.Machine
end

