-- ==== Sys2Proof/Safety.lean ====
section
/-! DEFINITION. The terms in which claims about runs are made: the state invariant, from the ranges that 10_state.md
gives its elements and the line outputs of 40_handshake.md R172, and the ticks a session can still take
(70_reset_and_hazards.md R364, 40_handshake.md R169). -/

namespace Sys2Proof.Machine

/-- The byte addresses that are storage: FBUF[0..46], TXPAY[0..44], FIELD[0..63] (R43 to R45). -/
def bufferCell (a : Nat) : Bool :=
  (decide (fbufBase ≤ a) && decide (a < fbufBase + 47)) || storable a

/-- The bound in force in the current wait or hold (R56), by role, handshake state and phase (R154 to R164). -/
def State.bound (s : State) : Nat :=
  match s.role, s.hs, s.ph with
  | .sender, .idle, _ => s.tmoBound
  | .sender, .start, _ => s.thalfBound
  | .sender, .bit, _ => s.thalfBound
  | .sender, .ack, _ => s.tackBound
  | .receiver, .idle, _ => s.tmoBound
  | .receiver, .start, _ => s.tbitBound
  | .receiver, .bit, _ => s.tbitBound
  | .receiver, .ack, false => s.tbitBound
  | .receiver, .ack, true => s.tackholdBound
  | .observer, .idle, _ => s.tmoBound
  | .observer, .start, _ => s.tbitBound
  | .observer, .bit, _ => s.tbitBound
  | .observer, .ack, _ => s.tackBound
  | _, _, _ => 0

/-- The line outputs of a busy block (R172). -/
def State.outputs (s : State) : Lines :=
  match s.role, s.hs with
  | .sender, .start => ⟨true, false, false, false⟩
  | .sender, .bit => ⟨true, false, !wireBit s.shreg s.bitn.toNat, s.ph⟩
  | .sender, .ack => ⟨true, false, false, false⟩
  | .receiver, .ack => ⟨false, s.ph, false, false⟩
  | _, _ => Lines.released

/-- The state between sessions (R50 to R62, R170). -/
structure State.Resting (s : State) : Prop where
  op : s.op = .none
  role : s.role = .none
  hs : s.hs = .idle ∨ s.hs = .timedOut
  bitn : s.bitn = 0
  ph : s.ph = false
  cnt : s.cnt = 0
  offset : s.offset = 0
  flen : s.flen = 0
  cidx : s.cidx = none
  oe : s.oe = Lines.released

/-- The frame of a SEND session: known from issue, its byte `st.offset` in `st.shreg` while cells move (R57, R155,
R159). -/
structure State.Sending (s : State) (k : Cmd) : Prop where
  op : s.op = .send
  cidx : s.cidx = some k
  sel : s.latched.sel = k.index
  flen : s.flen = BitVec.ofNat 6 k.flen
  offset : s.offset.toNat < k.flen
  first : s.hs = .idle ∨ s.hs = .start → s.offset = 0 ∧ s.bitn = 0 ∧ s.ph = false
  byte : s.hs = .bit ∨ s.hs = .ack → s.shreg = s.fbuf s.offset.toNat
  last : s.hs = .ack → s.bitn = 7

/-- How much of the frame a receiving session knows: nothing before the command byte's acknowledge, then the command
that `lookup` finds (R57, R58, R166). -/
def State.FrameKnown (s : State) : Prop :=
  (s.offset = 0 ∧ s.flen = 0 ∧ s.cidx = none) ∨
    ∃ k, s.cidx = some k ∧ s.flen = BitVec.ofNat 6 k.flen ∧ 1 ≤ s.offset.toNat ∧ s.offset.toNat < k.flen ∧
      lookup s.cfg s.op s.latched.sel s.latched.pf (s.shadow.read 0) = some k

/-- A LISTEN or RECEIVE session (R52, R55, R113, R160 to R166). -/
structure State.Hearing (s : State) : Prop where
  op : (s.role = .receiver ∧ s.op = .receive ∧ s.latched.sel.toNat < 12) ∨ (s.role = .observer ∧ s.op = .listen)
  frame : s.FrameKnown
  first : s.hs = .idle ∨ s.hs = .start → s.offset = 0 ∧ s.bitn = 0
  phase : s.ph = true → s.hs = .ack
  last : s.hs = .ack → s.bitn = 7

/-- The state of a session in progress. -/
structure State.InSession (s : State) : Prop where
  done : s.done = false
  hs : s.hs ≠ .timedOut
  latched : 1 ≤ s.tmoBound ∧ 1 ≤ s.tbitBound ∧ 1 ≤ s.tackBound ∧ 1 ≤ s.thalfBound ∧ 1 ≤ s.tackholdBound
  cnt : s.cnt.toNat < s.bound
  oe : s.oe = s.outputs
  role : (s.role = .sender ∧ ∃ k, s.Sending k) ∨ s.Hearing

/-- The invariant of the block: the byte memories are canonical and within their arrays, reserved register bits are
0, RESULT.ERR is one of R310's, and the session state is that of rest or of a session. -/
structure State.Inv (s : State) : Prop where
  mem_wf : s.mem.wf = true
  mem_cells : s.mem.all (fun c => bufferCell c.1) = true
  shadow_wf : s.shadow.wf = true
  shadow_cells : s.shadow.all (fun c => decide (c.1 < 47)) = true
  result_reserved : s.result.extractLsb' 6 2 = 0 ∧ s.result.extractLsb' 20 4 = 0 ∧ s.result.extractLsb' 30 2 = 0
  result_err : (s.result.extractLsb' 0 4).toNat ≤ 5
  anom_reserved : s.anom1.extractLsb' 13 19 = 0
  rest : s.busy = false → s.Resting
  session : s.busy = true → s.InSession

/-- The ticks of one whole byte in a session, at most (R364). -/
def State.byteTicks (s : State) : Nat :=
  match s.role with
  | .sender => 16 * s.thalfBound + 2 * s.tackBound
  | .receiver => 9 * s.tbitBound + s.tackholdBound
  | .observer => 8 * s.tbitBound + 2 * s.tackBound
  | .none => 0

/-- The frame length, or the longest one while it is unknown (00_scope.md R5: FLEN_MAX = 47). -/
def State.frameLimit (s : State) : Nat := if s.flen = 0 then 47 else s.flen.toNat

/-- The ticks that the bytes after the one in transfer can still take. -/
def State.laterTicks (s : State) : Nat := (s.frameLimit - (s.offset.toNat + 1)) * s.byteTicks

/-- The ticks that the byte in transfer can still take, with any wait before the frame. -/
def State.currentTicks (s : State) : Nat :=
  match s.role, s.hs, s.ph with
  | .sender, .idle, _ => (s.tmoBound - s.cnt.toNat) + s.thalfBound + s.byteTicks
  | .sender, .start, _ => (s.thalfBound - s.cnt.toNat) + s.byteTicks
  | .sender, .bit, false => (s.thalfBound - s.cnt.toNat) + (15 - 2 * s.bitn.toNat) * s.thalfBound + 2 * s.tackBound
  | .sender, .bit, true => (s.thalfBound - s.cnt.toNat) + (14 - 2 * s.bitn.toNat) * s.thalfBound + 2 * s.tackBound
  | .sender, .ack, false => (s.tackBound - s.cnt.toNat) + s.tackBound
  | .sender, .ack, true => s.tackBound - s.cnt.toNat
  | .receiver, .idle, _ => (s.tmoBound - s.cnt.toNat) + s.byteTicks
  | .receiver, .ack, false => (s.tbitBound - s.cnt.toNat) + s.tackholdBound
  | .receiver, .ack, true => s.tackholdBound - s.cnt.toNat
  | .receiver, _, _ => (s.tbitBound - s.cnt.toNat) + (8 - s.bitn.toNat) * s.tbitBound + s.tackholdBound
  | .observer, .idle, _ => (s.tmoBound - s.cnt.toNat) + s.byteTicks
  | .observer, .ack, false => (s.tackBound - s.cnt.toNat) + s.tackBound
  | .observer, .ack, true => s.tackBound - s.cnt.toNat
  | .observer, _, _ => (s.tbitBound - s.cnt.toNat) + (7 - s.bitn.toNat) * s.tbitBound + 2 * s.tackBound
  | _, _, _ => 0

/-- The ticks that a session can still take, whatever the peer does (R364). -/
def State.ticksLeft (s : State) : Nat := s.currentTicks + s.laterTicks

/-- Two states agree on all that a session is made of and leaves behind for the host: the session, the lines, FBUF,
RESULT and the anomaly bitmap (10_state.md R64, R66). -/
structure State.SameSession (s t : State) : Prop where
  busy : s.busy = t.busy
  op : s.op = t.op
  role : s.role = t.role
  hs : s.hs = t.hs
  bitn : s.bitn = t.bitn
  ph : s.ph = t.ph
  cnt : s.cnt = t.cnt
  offset : s.offset = t.offset
  flen : s.flen = t.flen
  cidx : s.cidx = t.cidx
  shreg : s.shreg = t.shreg
  shadow : s.shadow = t.shadow
  latched : s.latched = t.latched
  oe : s.oe = t.oe
  prev : s.prev = t.prev
  result : s.result = t.result
  anom0 : s.anom0 = t.anom0
  anom1 : s.anom1 = t.anom1
  fbuf : ∀ i, s.fbuf i = t.fbuf i

/-- The RESULT word of a received frame of command `k`, in the layout of 10_state.md R36: NBYTES, CMDIDX, CODE,
AMBIG, ANOM and ERR. -/
def receivedResult (c : Config) (k : Cmd) (anom : Bool) (err : BitVec 4) : Word :=
  0#2 ++ BitVec.ofNat 6 (k.len + 2) ++ 0#4 ++ k.index ++ c.code k ++ 0#2
    ++ BitVec.ofBool (decide (c.code k = 0xC0#8)) ++ BitVec.ofBool anom ++ err

/-- The tick in which the acknowledge of a received frame's last byte completes, at the levels `l` (40_handshake.md
R163, R164, R166): the session's command is known, and this byte is the last one. -/
structure State.AtFrameEnd (s : State) (l : Lines) : Prop where
  receiving : s.receiving = true
  hs : s.hs = .ack
  ph : s.ph = true
  role : (s.role = .observer ∧ l.ack = true) ∨ (s.role = .receiver ∧ s.latched.tackhold.toNat ≤ s.cnt.toNat + 1)
  notFirst : s.offset + 1 ≠ 1
  last : s.offset + 1 = s.flen

/-- The windows of the register map that are reserved, by word address (10_state.md R32, R46). -/
def reservedWord (w : Nat) : Bool :=
  (decide (10 ≤ w) && decide (w < 16)) || (decide (28 ≤ w) && decide (w < 32)) ||
    (decide (44 ≤ w) && decide (w < 64)) || decide (80 ≤ w)

/-- An entry covers bit `b` of payload byte `i` (30_encoding.md R120). -/
def entryCovers (e : Entry) (i b : Nat) : Prop := e.byte = i ∧ e.lo ≤ b ∧ b < e.lo + e.width

end Sys2Proof.Machine
end

