-- ==== Sys2Proof/Certificates/Slice0/Obligations.lean ====
section
/-! DEFINITION. The statements for the provers. Each docstring names the rule of spec/ that it formalises. -/

open Sys2Proof Sys2Proof.Machine

/-! Encoding -/

/-- Decode and encode agree for every well-formed instruction (30_encoding.md R110, R113 to R116): a CMD row in every
bit of its word, a wire row in every byte of its frame. The Postflash rows share their wire code, and are read back
when the session selects them (41_frame_codec.md R205). -/
def Obligations.DecodeOfEncodeIsTheInstruction : Prop :=
  ∀ (c : Config) (op : Op) (sel : BitVec 4) (pf : Bool) (i : Instr), c.wf = true → i.wf = true →
    (∀ p ck, i = .postflash1 p ck → postflashSelect op sel pf = .postflash1) →
    (∀ p ck, i = .postflash2 p ck → postflashSelect op sel pf = .postflash2) →
    decode c op sel pf (encode c i) = .ok i

/-- What decodes is the encoding of the instruction that it decodes to, which is well formed: no bit is dropped
(R110, R114, R209). Every CMD word decodes. -/
def Obligations.EncodeOfTheDecodedIsTheEncoded : Prop :=
  ∀ (c : Config) (op : Op) (sel : BitVec 4) (pf : Bool),
    (∀ w : Word, (decodeCmd w).wf = true ∧ encode c (decodeCmd w) = .cmd w) ∧
      ∀ (e : Encoded) (i : Instr), decode c op sel pf e = .ok i → i.wf = true ∧ encode c i = e

/-- 30_encoding.md R110: two CMD words that agree in OP [2:0] and CMDSEL [11:8] run alike; the bits [7:3] and
[31:12] do not take part. -/
def Obligations.IgnoredCmdBitsDoNotMatter : Prop :=
  ∀ (v w : Word) (s : State), v.extractLsb' 0 3 = w.extractLsb' 0 3 → v.extractLsb' 8 4 = w.extractLsb' 8 4 →
    exec (decodeCmd v) s = exec (decodeCmd w) s

/-- CMD words of 95_test_vectors.md section 2.2, and the frame of X1, decode to their instructions. -/
def Obligations.WordsOfTheTestVectorsDecode : Prop :=
  decodeCmd 0x00000702#32 = .send 0 7 0 ∧ decodeCmd 0x00000103#32 = .receive 0 1 0 ∧
    decodeCmd 0xFFFFF0F9#32 = .listen 0x1F 0 0xFFFFF ∧ decodeCmd 0x12345000#32 = .nop 0 0 0x12345 ∧
    decodeCmd 0x00000F03#32 = .receiveReservedCmdsel 0 3 0 ∧ decodeCmd 0x00000007#32 = .reservedOp7 0 0 0 ∧
    ∀ c : Config, decodeFrameAs c .afIllumination [0xD1, 0x01, 0x00, 0xD2] = .ok (.afIllumination [0x01, 0x00] 0xD2)

/-- 41_frame_codec.md R204 and R205: the code of a command other than the Postflash ones gives that command, every
byte that is no code is UNKNOWN, and 0xC0 gives the Postflash command that RECEIVE expects, else the one that PF_SEL
selects. -/
def Obligations.LookupOfCommandByte : Prop :=
  ∀ (c : Config) (op : Op) (sel : BitVec 4) (pf : Bool), c.wf = true →
    lookup c op sel pf 0xC0#8 =
        some (if op = .receive ∧ sel = 5 then .postflash1
          else if op = .receive ∧ sel = 6 then .postflash2
          else if pf = true then .postflash2
          else .postflash1) ∧
      (∀ k, k ≠ .postflash1 → k ≠ .postflash2 → lookup c op sel pf (c.code k) = some k) ∧
      ∀ b, (∀ k, c.code k ≠ b) → lookup c op sel pf b = none

/-! Host operations: nop, listen, send, receive, reservedOp4 to reservedOp7, sendReservedCmdsel,
receiveReservedCmdsel -/

/-- 43_host_ops.md R283: NOP changes no state, busy or not. Covers nop. -/
def Obligations.NopChangesNothing : Prop :=
  ∀ (ign : BitVec 5) (sel : BitVec 4) (high : BitVec 20) (s : State), exec (.nop ign sel high) s = .next s

/-- LISTEN in an idle block opens an OBSERVER session and changes nothing else (43_host_ops.md R281, R284): every
field that the record update does not name is as before, every byte of memory among them. Covers listen. -/
def Obligations.ListenOpensAnObserverSession : Prop :=
  ∀ (ign : BitVec 5) (sel : BitVec 4) (high : BitVec 20) (s : State), s.busy = false →
    exec (.listen ign sel high) s = .next
      { s with
        busy := true, op := .listen, role := .observer, latched := s.latch sel, done := false, hs := .idle,
        bitn := 0, ph := false, cnt := 0, offset := 0, flen := 0, cidx := none }

/-- RECEIVE of a logical command in an idle block opens a RECEIVER session and changes nothing else (R281, R286).
Covers receive. -/
def Obligations.ReceiveOpensAReceiverSession : Prop :=
  ∀ (ign : BitVec 5) (sel : BitVec 4) (high : BitVec 20) (s : State), s.busy = false → sel.toNat < 12 →
    exec (.receive ign sel high) s = .next
      { s with
        busy := true, op := .receive, role := .receiver, latched := s.latch sel, done := false, hs := .idle,
        bitn := 0, ph := false, cnt := 0, offset := 0, flen := 0, cidx := none }

/-- SEND of a logical command in an idle block opens a SENDER session with the encoded frame in FBUF, zero-filled
(R281, R285); every other byte and field is as before. Covers send. -/
def Obligations.SendOpensASenderSessionWithItsFrame : Prop :=
  ∀ (ign : BitVec 5) (sel : BitVec 4) (high : BitVec 20) (s : State) (k : Cmd), s.busy = false → sel = k.index →
    ∃ t, exec (.send ign sel high) s = .next t ∧
      t = { s with
        mem := t.mem, busy := true, op := .send, role := .sender, latched := s.latch sel, done := false,
        hs := .idle, bitn := 0, ph := false, cnt := 0, offset := 0, flen := BitVec.ofNat 6 (k.len + 2),
        cidx := some k } ∧
      ∀ a, t.mem.read a =
        if 0x040 ≤ a ∧ a < 0x06F then (encodeFrame s.cfg k (s.serialize k)).getD (a - 0x040) 0 else s.mem.read a

/-- 43_host_ops.md R282 with 30_encoding.md R111 and R113: the reserved CMD rows set REJ and change nothing else, busy
or not; so do SEND and RECEIVE with CMDSEL 12 to 15, and LISTEN, SEND and RECEIVE while a session is active. Covers
reservedOp4, reservedOp5, reservedOp6, reservedOp7, sendReservedCmdsel, receiveReservedCmdsel. -/
def Obligations.RejectedIssueSetsOnlyRej : Prop :=
  ∀ (ign : BitVec 5) (sel : BitVec 4) (selLo : BitVec 2) (high : BitVec 20) (s : State),
    exec (.reservedOp4 ign sel high) s = .next { s with rej := true } ∧
      exec (.reservedOp5 ign sel high) s = .next { s with rej := true } ∧
      exec (.reservedOp6 ign sel high) s = .next { s with rej := true } ∧
      exec (.reservedOp7 ign sel high) s = .next { s with rej := true } ∧
      exec (.sendReservedCmdsel ign selLo high) s = .next { s with rej := true } ∧
      exec (.receiveReservedCmdsel ign selLo high) s = .next { s with rej := true } ∧
      (12 ≤ sel.toNat ∨ s.busy = true → exec (.send ign sel high) s = .next { s with rej := true } ∧
        exec (.receive ign sel high) s = .next { s with rej := true }) ∧
      (s.busy = true → exec (.listen ign sel high) s = .next { s with rej := true })

/-- 10_state.md R63: what an issue latches. -/
def Obligations.LatchedParameters : Prop :=
  ∀ (s : State) (sel : BitVec 4),
    (s.latch sel).tmo.toNat = max s.tmo.toNat 1 ∧
      (s.latch sel).tbit.toNat = max (s.timing0.toNat % 65536) 1 ∧
      (s.latch sel).tack.toNat = max (s.timing0.toNat / 65536) 1 ∧
      (s.latch sel).thalf.toNat = max (s.timing1.toNat % 65536) 1 ∧
      (s.latch sel).tackhold.toNat = max (s.timing1.toNat / 65536) 1 ∧
      (s.latch sel).pf = s.pfSel ∧ (s.latch sel).sel = sel

/-! Wire commands: the twelve frames, named by their command through `frameInstr` -/

/-- A received frame with its right checksum, in LISTEN or in a RECEIVE that expects it, is delivered; that `exec` of
the frame at a receiving state stands for the end of its reception, with the frame's bytes loaded into `st.shadow`, is
the model's reading of a wire row (log entry 7; 41_frame_codec.md R212, 42_message_catalog.md R246, 60_exceptions.md R315, R316): FBUF holds the frame, FIELD the
extracted values, RESULT, ANOM0 and ANOM1 the outcome, DONE is set and the session ends; every other byte and field
is as before. Covers init0, init1, init2, flashSetting, camSetting, postflash1, postflash2, afIllumination,
redEyeReduction, modellingLight, preflash1, preflash2. -/
def Obligations.ReceivedFrameIsDelivered : Prop :=
  ∀ (k : Cmd) (p : List Byte) (ck : Byte) (s : State), s.receiving = true → p.length = k.len →
    s.cfg.checksum (s.cfg.code k :: p) = ck → (s.op = .receive → s.latched.sel = k.index) →
    ∃ t, exec (frameInstr k p ck) s = .next t ∧
      t = { s with
        result := receivedResult s.cfg k (decide (anomaly s.cfg k p ≠ 0)) 0,
        anom0 := t.anom0, anom1 := t.anom1, mem := t.mem, shadow := t.shadow,
        done := true, busy := false, op := .none, role := .none, hs := .idle, bitn := 0, ph := false, cnt := 0,
        offset := 0, flen := 0, cidx := none, oe := Lines.released } ∧
      t.anom1 ++ t.anom0 = (anomaly s.cfg k p).setWidth 64 ∧
      (∀ a, t.mem.read a =
        if 0x040 ≤ a ∧ a < 0x06F then (frameBytes s.cfg k p ck).getD (a - 0x040) 0
        else if 0x100 ≤ a ∧ a < 0x140 then (extract s.cfg k p).getD (a - 0x100) 0
        else s.mem.read a) ∧
      ∀ i, t.shadow.read i = if i < k.len + 2 then (frameBytes s.cfg k p ck).getD i 0 else s.shadow.read i

/-- A received frame with a wrong checksum byte completes with ChecksumMismatch, and a valid frame of another command
than the one that RECEIVE expects with UnexpectedCommand (R210 to R212): FBUF and `st.shadow` hold the frame, FIELD is
unchanged, no anomaly is reported. That `exec` of the frame at a receiving state stands for the end of its reception,
with the frame's bytes loaded into `st.shadow`, is the model's reading of a wire row (log entry 7). -/
def Obligations.InvalidFrameIsReportedAndDiscarded : Prop :=
  ∀ (k : Cmd) (p : List Byte) (ck : Byte) (s : State), s.receiving = true → p.length = k.len →
    (s.cfg.checksum (s.cfg.code k :: p) ≠ ck ∨ (s.op = .receive ∧ s.latched.sel ≠ k.index)) →
    ∃ t, exec (frameInstr k p ck) s = .next t ∧
      t = { s with
        result := receivedResult s.cfg k false (if s.cfg.checksum (s.cfg.code k :: p) = ck then 5 else 3),
        anom0 := 0, anom1 := 0, mem := t.mem, shadow := t.shadow,
        done := true, busy := false, op := .none, role := .none, hs := .idle, bitn := 0, ph := false, cnt := 0,
        offset := 0, flen := 0, cidx := none, oe := Lines.released } ∧
      (∀ a, t.mem.read a =
        if 0x040 ≤ a ∧ a < 0x06F then (frameBytes s.cfg k p ck).getD (a - 0x040) 0 else s.mem.read a) ∧
      ∀ i, t.shadow.read i = if i < k.len + 2 then (frameBytes s.cfg k p ck).getD i 0 else s.shadow.read i

/-- The model's reading of a frame on the lines of a block that is not receiving: it has no effect (log entry 7,
from 40_handshake.md R167 and R170). -/
def Obligations.FrameOutsideAReceiveHasNoEffect : Prop :=
  ∀ (k : Cmd) (p : List Byte) (ck : Byte) (s : State), s.receiving = false →
    exec (frameInstr k p ck) s = .next s

/-- The codec's part of the frame round trip (R213): what SEND puts into FBUF, decoded by a listening block of the same
configuration (PF_SEL chosen for a Postflash command) and run there as a frame's instruction, completes OK with the
same command and payload. The reception is `exec` of the decoded row, not the ticks of its bits: the model's reading of
a wire row (log entry 7). -/
def Obligations.SentFrameIsReceivedWhole : Prop :=
  ∀ (ign : BitVec 5) (high : BitVec 20) (k : Cmd) (s r : State), s.cfg.wf = true → r.cfg = s.cfg →
    s.busy = false → r.busy = true → r.op = .listen →
    (k = .postflash1 → r.latched.pf = false) → (k = .postflash2 → r.latched.pf = true) →
    ∃ t i u, exec (.send ign k.index high) s = .next t ∧
      decodeFrame r.cfg r.op r.latched.sel r.latched.pf ((List.range k.flen).map t.fbuf) = .ok i ∧
      exec i r = .next u ∧
      u.result.extractLsb' 0 4 = 0 ∧ u.result.extractLsb' 16 4 = k.index ∧
      ∀ j, j < k.len → u.fbuf (j + 1) = (s.serialize k).getD j 0

/-! Completion and the register words -/

/-- 60_exceptions.md R315: all that a completion writes; TIMEDOUT only for a Timeout. -/
def Obligations.CompletionEndsTheSession : Prop :=
  ∀ (err : Completion) (anom : BitVec 45) (c : BitVec 6) (s : State),
    complete err anom c s =
      { s with
        result := s.resultWord err anom c, anom0 := anom.extractLsb' 0 32,
        anom1 := (anom.extractLsb' 32 13).setWidth 32, done := true, busy := false, op := .none, role := .none,
        oe := Lines.released, hs := if err = .timeout then .timedOut else .idle, bitn := 0, ph := false, cnt := 0,
        offset := 0, flen := 0, cidx := none }

/-- 60_exceptions.md R316: the fields of the result word, ERR with the numbers of R310, every reserved bit 0. -/
def Obligations.ResultWordFields : Prop :=
  ∀ (s : State) (err : Completion) (anom : BitVec 45) (c : BitVec 6),
    ((err = .ok → (s.resultWord err anom c).extractLsb' 0 4 = 0) ∧
        (err = .timeout → (s.resultWord err anom c).extractLsb' 0 4 = 1) ∧
        (err = .noAck → (s.resultWord err anom c).extractLsb' 0 4 = 2) ∧
        (err = .checksumMismatch → (s.resultWord err anom c).extractLsb' 0 4 = 3) ∧
        (err = .unknownCommand → (s.resultWord err anom c).extractLsb' 0 4 = 4) ∧
        (err = .unexpectedCommand → (s.resultWord err anom c).extractLsb' 0 4 = 5)) ∧
      (s.resultWord err anom c).getLsbD 4 = decide (anom ≠ 0) ∧
      (s.resultWord err anom c).getLsbD 5 =
        decide (s.op ≠ .send ∧ 1 ≤ (s.offset + c).toNat ∧ s.shadow.read 0 = 0xC0#8) ∧
      (s.resultWord err anom c).extractLsb' 8 8 =
        (if s.op = .send then s.fbuf 0 else if 1 ≤ (s.offset + c).toNat then s.shadow.read 0 else 0) ∧
      (s.resultWord err anom c).extractLsb' 16 4 =
        (if s.op = .send then s.latched.sel else (s.cidx.map Cmd.index).getD 15) ∧
      (s.resultWord err anom c).extractLsb' 24 6 = s.offset + c ∧
      (s.resultWord err anom c).extractLsb' 6 2 = 0 ∧ (s.resultWord err anom c).extractLsb' 20 4 = 0 ∧
      (s.resultWord err anom c).extractLsb' 30 2 = 0

/-- 10_state.md R35 and R42: the fields of STATUS and LINES as they read, HS with the numbers of R35 and R53. -/
def Obligations.StatusAndLinesWordFields : Prop :=
  ∀ (s : State) (addr : BitVec 12),
    (addr.toNat / 4 = 2 →
      (s.hostRead addr).getLsbD 0 = s.busy ∧ (s.hostRead addr).getLsbD 1 = s.done ∧
        (s.hostRead addr).getLsbD 2 = s.rej ∧
        ((s.hs = .idle → (s.hostRead addr).extractLsb' 4 3 = 0) ∧
          (s.hs = .start → (s.hostRead addr).extractLsb' 4 3 = 1) ∧
          (s.hs = .bit → (s.hostRead addr).extractLsb' 4 3 = 2) ∧
          (s.hs = .ack → (s.hostRead addr).extractLsb' 4 3 = 3) ∧
          (s.hs = .timedOut → (s.hostRead addr).extractLsb' 4 3 = 4)) ∧
        (s.hostRead addr).getLsbD 7 = s.ph ∧ (s.hostRead addr).extractLsb' 8 3 = s.bitn ∧
        (s.hostRead addr).extractLsb' 16 6 = s.offset ∧ (s.hostRead addr).getLsbD 3 = false ∧
        (s.hostRead addr).extractLsb' 11 5 = 0 ∧ (s.hostRead addr).extractLsb' 22 10 = 0) ∧
      (addr.toNat / 4 = 9 →
        (s.hostRead addr).getLsbD 0 = s.prev.sync ∧ (s.hostRead addr).getLsbD 1 = s.prev.ack ∧
          (s.hostRead addr).getLsbD 2 = s.prev.data ∧ (s.hostRead addr).getLsbD 3 = s.prev.clock ∧
          (s.hostRead addr).getLsbD 8 = s.oe.sync ∧ (s.hostRead addr).getLsbD 9 = s.oe.ack ∧
          (s.hostRead addr).getLsbD 10 = s.oe.data ∧ (s.hostRead addr).getLsbD 11 = s.oe.clock ∧
          (s.hostRead addr).extractLsb' 4 4 = 0 ∧ (s.hostRead addr).extractLsb' 12 20 = 0)

/-- 10_state.md R32: the words at the byte addresses of the other registers that are no byte array: CTRL (R33), CMD,
which always reads 0 (R34), RESULT (R36), TMO, TIMING0 and TIMING1 (R37 to R39), ANOM0 and ANOM1 (R41). -/
def Obligations.RegisterWordsAsTheHostReadsThem : Prop :=
  ∀ (s : State) (addr : BitVec 12),
    (addr.toNat / 4 = 0x000 / 4 →
      (s.hostRead addr).getLsbD 0 = s.ie ∧ (s.hostRead addr).getLsbD 1 = s.pfSel ∧
        (s.hostRead addr).extractLsb' 2 30 = 0) ∧
      (addr.toNat / 4 = 0x004 / 4 → s.hostRead addr = 0) ∧
      (addr.toNat / 4 = 0x00C / 4 → s.hostRead addr = s.result) ∧
      (addr.toNat / 4 = 0x010 / 4 → s.hostRead addr = s.tmo) ∧
      (addr.toNat / 4 = 0x014 / 4 → s.hostRead addr = s.timing0) ∧
      (addr.toNat / 4 = 0x018 / 4 → s.hostRead addr = s.timing1) ∧
      (addr.toNat / 4 = 0x01C / 4 → s.hostRead addr = s.anom0) ∧
      (addr.toNat / 4 = 0x020 / 4 → s.hostRead addr = s.anom1)

/-! The host register window -/

/-- A host write at a byte address outside CMD's word stores the register of its word, and nothing else (20_memory.md
R81, R86); a step whose next input is that write stores it, with the session's own tick if one is active
(70_reset_and_hazards.md R350; the order of the two writers is log entry 1). -/
def Obligations.HostWriteStoresOnlyItsRegister : Prop :=
  ∀ (s : State) (addr : BitVec 12) (v : Word), addr.toNat / 4 ≠ 1 →
    s.writeWord (addr.toNat / 4) v =
      { s with
        ie := if addr.toNat / 4 = 0 then v.getLsbD 0 else s.ie,
        pfSel := if addr.toNat / 4 = 0 then v.getLsbD 1 else s.pfSel,
        done := if addr.toNat / 4 = 2 ∧ v.getLsbD 1 = true then false else s.done,
        rej := if addr.toNat / 4 = 2 ∧ v.getLsbD 2 = true then false else s.rej,
        tmo := if addr.toNat / 4 = 4 then v else s.tmo,
        timing0 := if addr.toNat / 4 = 5 then v else s.timing0,
        timing1 := if addr.toNat / 4 = 6 then v else s.timing1,
        mem := (s.writeWord (addr.toNat / 4) v).mem } ∧
      (∀ a, (s.writeWord (addr.toNat / 4) v).mem.read a =
        if a / 4 = addr.toNat / 4 ∧ ((0x080 ≤ a ∧ a < 0x0AD) ∨ (0x100 ≤ a ∧ a < 0x140)) then
          v.extractLsb' (8 * (a % 4)) 8
        else s.mem.read a) ∧
      ∀ (peer : Lines) (rest : List TickInput), s.cfg.wf = true → s.inputs = ⟨false, .write addr v, peer⟩ :: rest →
        step s = andThen
          (if s.busy = true then handshake (resolveLines s.oe peer) (s.writeWord (addr.toNat / 4) v)
            else .next (s.writeWord (addr.toNat / 4) v)) fun u =>
          .next { u with prev := resolveLines s.oe peer, inputs := rest, tick := s.tick + 1, hRdata := none }

/-- 20_memory.md R82: byte `i` of FBUF, TXPAY or FIELD is bits [8(i mod 4)+7 : 8(i mod 4)] of the word at
base + 4(i div 4). -/
def Obligations.ByteArraysReadLittleEndian : Prop :=
  ∀ (s : State) (i : Nat),
    (i < 48 → (s.hostRead (BitVec.ofNat 12 (0x040 + 4 * (i / 4)))).extractLsb' (8 * (i % 4)) 8 = s.fbuf i) ∧
      (i < 48 → (s.hostRead (BitVec.ofNat 12 (0x080 + 4 * (i / 4)))).extractLsb' (8 * (i % 4)) 8 = s.txpay i) ∧
      (i < 64 → (s.hostRead (BitVec.ofNat 12 (0x100 + 4 * (i / 4)))).extractLsb' (8 * (i % 4)) 8 = s.field i)

/-- A word that the host writes is what it then reads (20_memory.md R84, R86, 10_state.md R33, R37 to R39, R44, R45):
CTRL keeps its two bits, the last TXPAY word its first byte, every other writable word all 32 bits. The same of two
ticks, the first with the write and the second with the read: FIELD, which a decode writes too (R85), where the first
tick ends no session. -/
def Obligations.HostReadsBackWhatItWrote : Prop :=
  ∀ (s : State) (v : Word),
    ((s.writeWord 0 v).readWord 0 = v &&& 3 ∧ (s.writeWord 4 v).readWord 4 = v ∧
      (s.writeWord 5 v).readWord 5 = v ∧ (s.writeWord 6 v).readWord 6 = v ∧
      (∀ w, 32 ≤ w → w < 43 → (s.writeWord w v).readWord w = v) ∧
      (s.writeWord 43 v).readWord 43 = v &&& 0xFF ∧
      ∀ w, 64 ≤ w → w < 80 → (s.writeWord w v).readWord w = v) ∧
      ∀ (addr addr' : BitVec 12) (peer peer' : Lines) (t u : State), addr'.toNat / 4 = addr.toNat / 4 →
        step (s.withInput ⟨false, .write addr v, peer⟩) = .next t →
        step (t.withInput ⟨false, .read addr', peer'⟩) = .next u →
        (addr.toNat / 4 = 0x000 / 4 → u.hRdata = some (v &&& 3)) ∧
          (0x010 ≤ addr.toNat → addr.toNat < 0x01C → u.hRdata = some v) ∧
          (0x080 ≤ addr.toNat → addr.toNat < 0x0AC → u.hRdata = some v) ∧
          (addr.toNat / 4 = 0x0AC / 4 → u.hRdata = some (v &&& 0xFF)) ∧
          (0x100 ≤ addr.toNat → addr.toNat < 0x140 → t.busy = s.busy → u.hRdata = some v)

/-- 10_state.md R46: reserved byte addresses read 0 and ignore writes, of the register window and of a whole tick: a
tick with a write there is the tick without an access, and one with a read differs from it only in the 0 on
`h_rdata`. -/
def Obligations.ReservedAddressesReadZeroAndIgnoreWrites : Prop :=
  ∀ (s : State) (addr : BitVec 12) (v : Word), reservedWord (addr.toNat / 4) = true →
    (s.hostRead addr = 0 ∧ s.writeWord (addr.toNat / 4) v = s) ∧
      ∀ (peer : Lines) (t : State), step (s.withInput ⟨false, .idle, peer⟩) = .next t →
        step (s.withInput ⟨false, .write addr v, peer⟩) = .next t ∧
          step (s.withInput ⟨false, .read addr, peer⟩) = .next { t with hRdata := some 0 }

/-- 20_memory.md R88: a host read has no side effect: its tick differs from the same tick without an access only in
the word on `h_rdata`, which comes from the state at the start of the tick (R80). -/
def Obligations.HostReadHasNoSideEffect : Prop :=
  ∀ (s t : State) (addr : BitVec 12) (peer : Lines), step (s.withInput ⟨false, .idle, peer⟩) = .next t →
    step (s.withInput ⟨false, .read addr, peer⟩) = .next { t with hRdata := some (s.hostRead addr) }

/-! The bit-field serializer -/

/-- 42_message_catalog.md R247: the extracted values are the entries' bits, zero-extended, and 0 past the layout. -/
def Obligations.ExtractTakesEachEntrysBits : Prop :=
  ∀ (c : Config) (k : Cmd) (p : List Byte), layoutWf k.len (c.layout k) = true →
    (extract c k p).length = 64 ∧
      (∀ j e b, (c.layout k)[j]? = some e →
        ((extract c k p).getD j 0).getLsbD b =
          (decide (b < e.width) && (p.getD e.byte 0).getLsbD (e.lo + b))) ∧
      ∀ j, (c.layout k).length ≤ j → (extract c k p).getD j 0 = 0

/-- 42_message_catalog.md R248: each payload bit that an entry covers comes from the entry's field value, and every
other bit is the raw payload's. -/
def Obligations.SerializeInsertsFieldsAndKeepsOpaqueBits : Prop :=
  ∀ (c : Config) (k : Cmd) (fv : Nat → Byte) (p : List Byte), layoutWf k.len (c.layout k) = true →
    p.length = k.len →
    (serializeFrom c k fv p).length = k.len ∧
      (∀ j e i b, (c.layout k)[j]? = some e → entryCovers e i b →
        ((serializeFrom c k fv p).getD i 0).getLsbD b = (fv j).getLsbD (b - e.lo)) ∧
      ∀ i b, (∀ e ∈ c.layout k, ¬ entryCovers e i b) →
        ((serializeFrom c k fv p).getD i 0).getLsbD b = (p.getD i 0).getLsbD b

/-- 42_message_catalog.md R249: serializing a payload's own fields into it gives the payload. -/
def Obligations.SerializeOfExtractedFieldsIsThePayload : Prop :=
  ∀ (c : Config) (k : Cmd) (p : List Byte), layoutWf k.len (c.layout k) = true → p.length = k.len →
    serializeFrom c k (fun j => (extract c k p).getD j 0) p = p

/-- 42_message_catalog.md R245: bit `i` of the anomaly bitmap is 1 exactly when some CONST entry of payload byte `i`
differs from its constant. -/
def Obligations.AnomalyBitmapMarksDifferingConstants : Prop :=
  ∀ (c : Config) (k : Cmd) (p : List Byte) (i : Nat), i < 45 →
    ((anomaly c k p).getLsbD i = true ↔
      ∃ e ∈ c.layout k, e.byte = i ∧ ∃ v, e.kind = .const v ∧ fieldOf e p ≠ v)

/-! The handshake, one tick of a session -/

/-- 40_handshake.md R154: the sender waits for an idle bus. -/
def Obligations.SenderWaitsForAnIdleBus : Prop :=
  ∀ (l : Lines) (s : State), s.role = .sender → s.hs = .idle →
    handshake l s =
      if l = Lines.idle then .next { s with cnt := 0, oe := { s.oe with sync := true }, hs := .start }
      else if s.latched.tmo.toNat ≤ s.cnt.toNat + 1 then .next (complete .timeout 0 0 s)
      else .next { s with cnt := s.cnt + 1 }

/-- 40_handshake.md R155: the setup after the start, and the first bit of the byte on Data. -/
def Obligations.SenderSetsUpTheFirstByte : Prop :=
  ∀ (l : Lines) (s : State), s.role = .sender → s.hs = .start →
    handshake l s =
      if s.latched.thalf.toNat ≤ s.cnt.toNat + 1 then
        .next { s with
          cnt := 0, shreg := s.fbuf s.offset.toNat, bitn := 0, ph := false, hs := .bit,
          oe := { s.oe with data := !(s.fbuf s.offset.toNat).getLsbD 7 } }
      else .next { s with cnt := s.cnt + 1 }

/-- 40_handshake.md R156: the two halves of a bit cell, most significant bit first. -/
def Obligations.SenderDrivesABitCell : Prop :=
  ∀ (l : Lines) (s : State), s.role = .sender → s.hs = .bit →
    handshake l s =
      if s.cnt.toNat + 1 < s.latched.thalf.toNat then .next { s with cnt := s.cnt + 1 }
      else if s.ph = false then .next { s with cnt := 0, ph := true, oe := { s.oe with clock := true } }
      else if s.bitn.toNat < 7 then
        .next { s with
          cnt := 0, bitn := s.bitn + 1, ph := false,
          oe := { s.oe with clock := false, data := !s.shreg.getLsbD (6 - s.bitn.toNat) } }
      else .next { s with cnt := 0, hs := .ack, ph := false, oe := { s.oe with clock := false, data := false } }

/-- 40_handshake.md R157 to R159: the sender waits for Ack low (else NoAck), then for Ack high (else Timeout); then it
ends the frame, or puts the next byte's first bit on Data. -/
def Obligations.SenderWaitsForTheAcknowledge : Prop :=
  ∀ (l : Lines) (s : State), s.role = .sender → s.hs = .ack →
    handshake l s =
      if s.ph = false then
        if l.ack = false then .next { s with cnt := 0, ph := true }
        else if s.latched.tack.toNat ≤ s.cnt.toNat + 1 then .next (complete .noAck 0 0 s)
        else .next { s with cnt := s.cnt + 1 }
      else if l.ack = true then
        if s.offset + 1 = s.flen then .next (complete .ok 0 1 s)
        else .next { s with
          cnt := 0, offset := s.offset + 1, shreg := s.fbuf (s.offset.toNat + 1), bitn := 0, ph := false, hs := .bit,
          oe := { s.oe with data := !(s.fbuf (s.offset.toNat + 1)).getLsbD 7 } }
      else if s.latched.tack.toNat ≤ s.cnt.toNat + 1 then .next (complete .timeout 0 0 s)
      else .next { s with cnt := s.cnt + 1 }

/-- 40_handshake.md R160: a receiver or observer awaits the fall of Sync. -/
def Obligations.ReceiverAwaitsTheFallOfSync : Prop :=
  ∀ (l : Lines) (s : State), s.role = .receiver ∨ s.role = .observer → s.hs = .idle →
    handshake l s =
      if s.prev.sync = true ∧ l.sync = false then .next { s with cnt := 0, hs := .start, bitn := 0 }
      else if s.latched.tmo.toNat ≤ s.cnt.toNat + 1 then .next (complete .timeout 0 0 s)
      else .next { s with cnt := s.cnt + 1 }

/-- 40_handshake.md R161 and R162: a receiver or observer samples Data at each fall of Clock. -/
def Obligations.ReceiverSamplesAtTheFallOfClock : Prop :=
  ∀ (l : Lines) (s : State), s.role = .receiver ∨ s.role = .observer → s.hs = .start ∨ s.hs = .bit →
    handshake l s =
      if s.prev.clock = true ∧ l.clock = false then
        if s.hs = .start ∨ s.bitn.toNat < 7 then
          .next { s with
            cnt := 0, shreg := s.shreg.extractLsb' 0 7 ++ BitVec.ofBool l.data, bitn := s.bitn + 1, hs := .bit }
        else
          .next { s with
            cnt := 0, shreg := s.shreg.extractLsb' 0 7 ++ BitVec.ofBool l.data,
            shadow := s.shadow.write s.offset.toNat (s.shreg.extractLsb' 0 7 ++ BitVec.ofBool l.data),
            hs := .ack, ph := false }
      else if s.latched.tbit.toNat ≤ s.cnt.toNat + 1 then .next (complete .timeout 0 0 s)
      else .next { s with cnt := s.cnt + 1 }

/-- Eight samples assemble the byte, the first bit sampled its most significant one (40_handshake.md R162,
30_encoding.md R118), and put it into `st.shadow` at the byte's place: from START for a frame's first byte, whose
cell 0 START takes, and from BIT(0) for a later one. -/
def Obligations.EightSamplesAssembleTheByte : Prop :=
  ∀ (b : Byte) (l : Lines) (s : State), s.hs = .start ∨ s.hs = .bit → s.bitn = 0 →
    ∃ t, (List.range 8).foldl (fun u i => sample { l with data := b.getLsbD (7 - i) } u) s = t ∧
      t = { s with hs := .ack, bitn := 7, ph := false, shreg := b, shadow := t.shadow } ∧
      ∀ i, t.shadow.read i = if i = s.offset.toNat then b else s.shadow.read i

/-- 40_handshake.md R163: the receiver waits for Clock released, then pulls Ack for TACKHOLD ticks. -/
def Obligations.ReceiverAcknowledgesEachByte : Prop :=
  ∀ (l : Lines) (s : State), s.role = .receiver → s.hs = .ack →
    handshake l s =
      if s.ph = false then
        if l.clock = true then .next { s with cnt := 0, ph := true, oe := { s.oe with ack := true } }
        else if s.latched.tbit.toNat ≤ s.cnt.toNat + 1 then .next (complete .timeout 0 0 s)
        else .next { s with cnt := s.cnt + 1 }
      else if s.latched.tackhold.toNat ≤ s.cnt.toNat + 1 then
        rxByteDone { s with cnt := 0, oe := { s.oe with ack := false } }
      else .next { s with cnt := s.cnt + 1 }

/-- 40_handshake.md R164: the observer watches the real receiver's Ack. -/
def Obligations.ObserverWatchesTheAcknowledge : Prop :=
  ∀ (l : Lines) (s : State), s.role = .observer → s.hs = .ack →
    handshake l s =
      if s.ph = false then
        if l.ack = false then .next { s with cnt := 0, ph := true }
        else if s.latched.tack.toNat ≤ s.cnt.toNat + 1 then .next (complete .noAck 0 0 s)
        else .next { s with cnt := s.cnt + 1 }
      else if l.ack = true then rxByteDone { s with cnt := 0 }
      else if s.latched.tack.toNat ≤ s.cnt.toNat + 1 then .next (complete .timeout 0 0 s)
      else .next { s with cnt := s.cnt + 1 }

/-- The receive-side byte done before the last byte (40_handshake.md R166, 41_frame_codec.md R207): the command byte
is looked up, and is unknown or gives the length; a later byte that is not the last goes on to the next one. -/
def Obligations.ByteDoneLooksUpTheCommandOrGoesOn : Prop :=
  ∀ s : State,
    (s.offset = 0 → lookup s.cfg s.op s.latched.sel s.latched.pf (s.shadow.read 0) = none →
      rxByteDone s = .next (complete .unknownCommand 0 1 s)) ∧
      (∀ k, s.offset = 0 → lookup s.cfg s.op s.latched.sel s.latched.pf (s.shadow.read 0) = some k →
        rxByteDone s = .next { s with
          offset := 1, cidx := some k, flen := BitVec.ofNat 6 (k.len + 2), hs := .bit, bitn := 0, ph := false }) ∧
      (s.offset ≠ 0 → s.offset + 1 ≠ s.flen →
        rxByteDone s = .next { s with offset := s.offset + 1, hs := .bit, bitn := 0, ph := false })

/-! The step -/

/-- A tick with a host write to CMD runs the instruction that the word decodes to, on the state at the start of the
tick, and then, if a session was active, the session's own tick (70_reset_and_hazards.md R350; log entry 1). -/
def Obligations.StepRunsTheCmdWordsInstruction : Prop :=
  ∀ (s : State) (addr : BitVec 12) (v : Word) (peer : Lines) (rest : List TickInput), s.cfg.wf = true →
    addr.extractLsb' 2 10 = 1 → s.inputs = ⟨false, .write addr v, peer⟩ :: rest →
    step s = andThen (exec (decodeCmd v) s) fun t =>
      andThen (if s.busy = true then handshake (resolveLines s.oe peer) t else .next t) fun u =>
        .next { u with prev := resolveLines s.oe peer, inputs := rest, tick := s.tick + 1, hRdata := none }

/-- The tick in which the last byte of a received frame is acknowledged runs the frame's instruction (40_handshake.md
R166, 41_frame_codec.md R212; log entry 7). -/
def Obligations.StepRunsTheReceivedFramesInstruction : Prop :=
  ∀ (s : State) (peer : Lines) (rest : List TickInput) (i : Instr), s.cfg.wf = true →
    s.inputs = ⟨false, .idle, peer⟩ :: rest → s.AtFrameEnd (resolveLines s.oe peer) → s.receivedInstr = .ok i →
    step s = andThen (exec i s) fun u =>
      .next { u with prev := resolveLines s.oe peer, inputs := rest, tick := s.tick + 1, hRdata := none }

/-- What reset leaves (10_state.md R67): the state after reset, element by element. -/
def Obligations.ResetStateIsAsStated : Prop :=
  State.reset.ctrlWord = 0 ∧ State.reset.statusWord = 0 ∧ State.reset.result = 0 ∧ State.reset.tmo = 0 ∧
    State.reset.timing0 = 0 ∧ State.reset.timing1 = 0 ∧ State.reset.anom0 = 0 ∧ State.reset.anom1 = 0 ∧
    (∀ i, State.reset.fbuf i = 0 ∧ State.reset.txpay i = 0 ∧ State.reset.field i = 0) ∧
    State.reset.busy = false ∧ State.reset.op = .none ∧ State.reset.role = .none ∧ State.reset.hs = .idle ∧
    State.reset.bitn = 0 ∧ State.reset.ph = false ∧ State.reset.cnt = 0 ∧ State.reset.offset = 0 ∧
    State.reset.flen = 0 ∧ cidxField State.reset.cidx = 15 ∧ State.reset.shreg = 0 ∧
    (∀ i, State.reset.shadow.read i = 0) ∧ State.reset.oe = ⟨false, false, false, false⟩ ∧
    State.reset.prev = ⟨true, true, true, true⟩ ∧ State.reset.latched = ⟨1, 1, 1, 1, 1, false, 0⟩ ∧
    State.reset.irq = false

/-- 70_reset_and_hazards.md R351: every tick with `rst` = 1 resets the block, whatever it was doing, and its host
access has no effect. The configuration and the model's own inputs and tick count are no state of the spec's. -/
def Obligations.ResetTickResetsEveryElement : Prop :=
  ∀ (s : State) (h : HostAccess) (peer : Lines) (rest : List TickInput), s.cfg.wf = true →
    s.inputs = ⟨true, h, peer⟩ :: rest →
    step s = .next { State.reset with cfg := s.cfg, inputs := rest, tick := s.tick + 1 }

/-- 40_handshake.md R170: a block that is not busy only samples its lines. -/
def Obligations.RestingBlockOnlySamplesItsLines : Prop :=
  ∀ (s : State) (peer : Lines) (rest : List TickInput), s.cfg.wf = true → s.busy = false →
    s.inputs = ⟨false, .idle, peer⟩ :: rest →
    step s = .next
      { s with prev := resolveLines s.oe peer, inputs := rest, tick := s.tick + 1, hRdata := none }

/-- 00_scope.md R5 and 10_state.md R65: the configuration is fixed for the life of the block; one that breaks a
constraint is refused, and one that does not has distinct wire codes, but for the two Postflash commands. -/
def Obligations.ConfigurationIsCheckedAndKept : Prop :=
  (∀ s t : State, step s = .next t → t.cfg = s.cfg) ∧
    (∀ s : State, s.cfg.wf = false → step s = .refused .badConfiguration) ∧
    ∀ (c : Config) (k k' : Cmd), c.wf = true → c.code k = c.code k' →
      k = k' ∨ (c.code k = 0xC0#8 ∧ (k = .postflash1 ∨ k = .postflash2) ∧ (k' = .postflash1 ∨ k' = .postflash2))

/-- The state after reset satisfies the invariant. -/
def Obligations.InvariantHoldsAtReset : Prop := State.reset.Inv

/-- Every step keeps the invariant: canonical byte memories within their arrays, reserved register bits 0, the
ranges of 10_state.md R50 to R59, the line outputs of 40_handshake.md R172, and the bound of every wait (R56). -/
def Obligations.StepKeepsTheInvariant : Prop :=
  ∀ s t : State, s.Inv → step s = .next t → t.Inv

/-- From a state of the invariant, under a well-formed configuration, every step has a next state, whatever the host
and the peer do: nothing leaves the block stuck (60_exceptions.md R313). -/
def Obligations.StepNeverStops : Prop :=
  ∀ s : State, s.Inv → s.cfg.wf = true → ∃ t, step s = .next t

/-- Passive mode (60_exceptions.md R323, 40_handshake.md R164): a block in a LISTEN session drives no line, before
and after every tick. -/
def Obligations.ListenDrivesNoLine : Prop :=
  ∀ s t : State, s.Inv → s.busy = true → s.op = .listen → step s = .next t →
    s.oe = Lines.released ∧ t.oe = Lines.released

/-- Every tick of a session, whatever the host and the peer do, uses up some of the ticks it can still take. -/
def Obligations.EverySessionTickUsesUpItsBudget : Prop :=
  ∀ s t : State, s.Inv → s.busy = true → s.nextInput.rst = false → step s = .next t → t.busy = true →
    t.ticksLeft < s.ticksLeft

/-- 40_handshake.md R169: every session ends within a bounded number of ticks, whatever the host and the peer do in
them. -/
def Obligations.EverySessionEnds : Prop :=
  ∀ (s : State) (n : Nat), s.Inv → s.cfg.wf = true → s.busy = true → s.ticksLeft ≤ n → n ≤ s.inputs.length →
    (∀ i ∈ s.inputs, i.rst = false) →
    ∃ m t, m ≤ n ∧ Host.Core.run core m s = .next t ∧ t.busy = false

/-- The budget at issue is the bound of 70_reset_and_hazards.md R364, with the longest frame while the length is not
known; and once the command is known the bound is the frame's own: a session that runs on from its wait for the start,
and has command `k` after `m` ticks, has then taken fewer ticks than the bound of R364 with `FLEN[k]`. -/
def Obligations.IssuedSessionBudget : Prop :=
  (∀ (sel : BitVec 4) (k : Cmd) (s : State),
    (acceptSend sel k s).ticksLeft =
        (s.latch sel).tmo.toNat + (s.latch sel).thalf.toNat +
          (k.len + 2) * (16 * (s.latch sel).thalf.toNat + 2 * (s.latch sel).tack.toNat) ∧
      (acceptReceive sel s).ticksLeft =
        (s.latch sel).tmo.toNat + 47 * (9 * (s.latch sel).tbit.toNat + (s.latch sel).tackhold.toNat) ∧
      (acceptListen sel s).ticksLeft =
        (s.latch sel).tmo.toNat + 47 * (8 * (s.latch sel).tbit.toNat + 2 * (s.latch sel).tack.toNat)) ∧
    ∀ (s t : State) (k : Cmd) (m : Nat), s.Inv → s.busy = true → s.hs = .idle →
      (∀ j, j ≤ m → ∃ u : State, Host.Core.run core j s = .next u ∧ u.busy = true) →
      Host.Core.run core m s = .next t → t.cidx = some k →
      (s.role = .sender →
          m < s.latched.tmo.toNat + s.latched.thalf.toNat +
            (k.len + 2) * (16 * s.latched.thalf.toNat + 2 * s.latched.tack.toNat)) ∧
        (s.role = .receiver →
          m < s.latched.tmo.toNat + (k.len + 2) * (9 * s.latched.tbit.toNat + s.latched.tackhold.toNat)) ∧
        (s.role = .observer →
          m < s.latched.tmo.toNat + (k.len + 2) * (8 * s.latched.tbit.toNat + 2 * s.latched.tack.toNat))

/-- The exact timeout of a LISTEN or RECEIVE with no start (70_reset_and_hazards.md R364, 40_handshake.md R160): with
Sync never pulled, the session is still there after fewer ticks than its latched TMO, and completes with Timeout in
exactly that many, whatever the host does. -/
def Obligations.ListenTimesOutAfterExactlyTmo : Prop :=
  ∀ (s : State) (n : Nat), s.cfg.wf = true → s.busy = true → s.role = .receiver ∨ s.role = .observer →
    s.hs = .idle → s.cnt = 0 → s.oe.sync = false → n = s.latched.tmo.toNat → 1 ≤ n → n ≤ s.inputs.length →
    (∀ i ∈ s.inputs, i.rst = false ∧ i.peer.sync = false) →
    (∀ m, m < n → ∃ t, Host.Core.run core m s = .next t ∧ t.busy = true) ∧
      ∃ t, Host.Core.run core n s = .next t ∧ t.busy = false ∧ t.done = true ∧ t.hs = .timedOut ∧
        t.result.extractLsb' 0 4 = 1

/-! The block and the host in one tick -/

/-- A host access does not change the session in progress (10_state.md R63, 70_reset_and_hazards.md R355): two ticks
with the same lines and different accesses leave the same session, lines, FBUF and result. -/
def Obligations.SessionDoesNotDependOnTheHostAccess : Prop :=
  ∀ (s t u : State) (h h' : HostAccess) (peer : Lines), s.busy = true →
    step (s.withInput ⟨false, h, peer⟩) = .next t → step (s.withInput ⟨false, h', peer⟩) = .next u →
    t.SameSession u

/-- A CMD write while a session is active, in the tick in which it completes too, has no effect but REJ, and none at
all if it is NOP (20_memory.md R85(c), 43_host_ops.md R282, R283). -/
def Obligations.CmdWriteWhileBusyChangesOnlyRej : Prop :=
  ∀ (s t : State) (addr : BitVec 12) (v : Word) (peer : Lines), s.busy = true → addr.extractLsb' 2 10 = 1 →
    step (s.withInput ⟨false, .idle, peer⟩) = .next t →
    step (s.withInput ⟨false, .write addr v, peer⟩) =
      .next { t with rej := if v.extractLsb' 0 3 = 0 then t.rej else true }

/-- The interrupt is DONE and IE, at every state (10_state.md R47, 60_exceptions.md R320); a completion's DONE wins
over any host access of its tick (20_memory.md R85(b)), and the interrupt is then the enable. -/
def Obligations.CompletionSetsDoneWhateverTheHostDoes : Prop :=
  (∀ s : State, s.irq = true ↔ s.done = true ∧ s.ie = true) ∧
    ∀ (s t : State) (h : HostAccess) (peer : Lines), s.busy = true →
      step (s.withInput ⟨false, h, peer⟩) = .next t → t.busy = false → t.done = true ∧ t.irq = t.ie

/-- A decode's FIELD values win over a host write of its tick (20_memory.md R85(a)). -/
def Obligations.DecodedFieldsWinOverAHostWrite : Prop :=
  ∀ (s t u : State) (h : HostAccess) (peer : Lines), s.Inv → s.busy = true → s.op ≠ .send →
    step (s.withInput ⟨false, .idle, peer⟩) = .next t → t.busy = false → t.result.extractLsb' 0 4 = 0 →
    step (s.withInput ⟨false, h, peer⟩) = .next u → ∀ j, u.field j = t.field j

/-- 10_state.md R40: blocks on the same lines all see the same levels, and a line is at 1 exactly when no agent
pulls it. -/
def Obligations.SharedLinesHaveOneLevel : Prop :=
  ∀ (outside : Lines) (blocks : List State),
    (∀ s ∈ blocks, resolveLines s.oe (busPulls outside blocks) = busLevels outside blocks) ∧
      ((busLevels outside blocks).sync = true ↔ outside.sync = false ∧ ∀ s ∈ blocks, s.oe.sync = false) ∧
      ((busLevels outside blocks).ack = true ↔ outside.ack = false ∧ ∀ s ∈ blocks, s.oe.ack = false) ∧
      ((busLevels outside blocks).data = true ↔ outside.data = false ∧ ∀ s ∈ blocks, s.oe.data = false) ∧
      ((busLevels outside blocks).clock = true ↔ outside.clock = false ∧ ∀ s ∈ blocks, s.oe.clock = false)

/-! The scaled-quantity formulas -/

/-- 42_message_catalog.md R265(a): encoding a decoded byte gives the byte, for every quantity and every byte. -/
def Obligations.ScaledBytesRoundTrip : Prop :=
  ∀ x : Byte,
    encodePower (powerFraction x) = some x ∧ encodeIso (isoValue x) = some x ∧
      encodeExposure (exposureTime x) = some x ∧ encodeFstop (fstopValue x) = some x ∧
      encodeFocal (focalLength x) = some x ∧ encodeDistance (focusDistance x) = some x

/-- 42_message_catalog.md R265(b): within the byte's range the encoded byte is within half a unit of the unrounded
value, or within one where R261 corrects an EXPOSURE byte, which is where the uncorrected byte is 128. -/
def Obligations.EncodedBytesAreWithinHalfAUnit : Prop :=
  ∀ v : ℝ, 0 < v →
    (0 ≤ powerInverse v → powerInverse v ≤ 255 →
      ∃ x, encodePower v = some x ∧ |powerInverse v - (x.toNat : ℝ)| ≤ 1 / 2) ∧
    (0 ≤ isoInverse v → isoInverse v ≤ 255 →
      ∃ x, encodeIso v = some x ∧ |isoInverse v - (x.toNat : ℝ)| ≤ 1 / 2) ∧
    (0 ≤ exposureInverse v → exposureInverse v ≤ 255 →
      ∃ x, encodeExposure (.seconds v) = some x ∧
        |exposureInverse v - (x.toNat : ℝ)| ≤ if encodeRaw (exposureInverse v) = 128#8 then 1 else 1 / 2) ∧
    (0 ≤ fstopInverse v → fstopInverse v ≤ 255 →
      ∃ x, encodeFstop v = some x ∧ |fstopInverse v - (x.toNat : ℝ)| ≤ 1 / 2) ∧
    (0 ≤ focalInverse v → focalInverse v ≤ 255 →
      ∃ x, encodeFocal v = some x ∧ |focalInverse v - (x.toNat : ℝ)| ≤ 1 / 2) ∧
    (0 ≤ distanceInverse v → distanceInverse v ≤ 255 →
      ∃ x, encodeDistance v = some x ∧ |distanceInverse v - (x.toNat : ℝ)| ≤ 1 / 2)

/-- 42_message_catalog.md R261: a real time never encodes to the bulb sentinel, and bulb always does. -/
def Obligations.NoExposureTimeEncodesAsBulb : Prop :=
  encodeExposure .bulb = some 128#8 ∧
    ∀ t : ℝ, 0 < t → ∃ x, encodeExposure (.seconds t) = some x ∧ x ≠ 128#8
end

