-- ==== Sys2Proof/Laws/Bits.lean ====
section
/-! SUPPORT. Bits and fields of words that are put together with `++`. -/

namespace Sys2Proof

variable {m n : Nat} (x : BitVec m) (y : BitVec n)

/-- A bit of the low part. -/
theorem getLsbD_append_low (i : Nat) (h : i < n) : (x ++ y).getLsbD i = y.getLsbD i := by
  simp [BitVec.getLsbD_append, h]

/-- A bit of the high part. -/
theorem getLsbD_append_high (i : Nat) (h : n ≤ i) : (x ++ y).getLsbD i = x.getLsbD (i - n) := by
  simp [BitVec.getLsbD_append, show ¬ i < n by omega]

/-- A field that lies in the low part. -/
theorem field_append_low (k l : Nat) (h : k + l ≤ n) : (x ++ y).extractLsb' k l = y.extractLsb' k l := by
  apply BitVec.eq_of_getLsbD_eq
  intro i hi
  simp only [BitVec.getLsbD_extractLsb', getLsbD_append_low x y (k + i) (by omega)]

/-- A field that lies in the high part. -/
theorem field_append_high (k l : Nat) (h : n ≤ k) : (x ++ y).extractLsb' k l = x.extractLsb' (k - n) l := by
  apply BitVec.eq_of_getLsbD_eq
  intro i hi
  simp only [BitVec.getLsbD_extractLsb', getLsbD_append_high x y (k + i) (by omega),
    show k + i - n = k - n + i by omega]

/-- The whole of a word as a field. -/
theorem field_all : y.extractLsb' 0 n = y := by simp

theorem getLsbD_ofBool_zero (b : Bool) : (BitVec.ofBool b).getLsbD 0 = b := by simp

end Sys2Proof
end

