-- ==== Sys2Proof/Laws/Encoding.lean ====
section
/-! SUPPORT. The encodings: the fields of a CMD word, the logical command index, the frames and the lookup. -/

namespace Sys2Proof

/-! The CMD word -/

section word

variable (op : BitVec 3) (ign : BitVec 5) (sel : BitVec 4) (high : BitVec 20)

/-- The bits of a CMD word. -/
theorem cmdWord_getLsbD (i : Nat) :
    (cmdWord op ign sel high).getLsbD i =
      if i < 3 then op.getLsbD i
      else if i < 8 then ign.getLsbD (i - 3)
      else if i < 12 then sel.getLsbD (i - 8)
      else high.getLsbD (i - 12) := by
  show BitVec.getLsbD (w := 20 + 4 + 5 + 3) (high ++ sel ++ ign ++ op) i = _
  simp only [BitVec.getLsbD_append]
  split_ifs <;> first | rfl | omega

@[simp] theorem cmdOp_cmdWord : cmdOp (cmdWord op ign sel high) = op := by
  apply BitVec.eq_of_getElem_eq
  intro i hi
  rw [cmdOp, BitVec.getElem_extractLsb', cmdWord_getLsbD, if_pos (by omega)]
  simp [hi]

@[simp] theorem cmdIgn_cmdWord : cmdIgn (cmdWord op ign sel high) = ign := by
  apply BitVec.eq_of_getElem_eq
  intro i hi
  rw [cmdIgn, BitVec.getElem_extractLsb', cmdWord_getLsbD, if_neg (by omega), if_pos (by omega)]
  simp [hi]

@[simp] theorem cmdSel_cmdWord : cmdSel (cmdWord op ign sel high) = sel := by
  apply BitVec.eq_of_getElem_eq
  intro i hi
  rw [cmdSel, BitVec.getElem_extractLsb', cmdWord_getLsbD, if_neg (by omega), if_neg (by omega), if_pos (by omega)]
  simp [hi]

@[simp] theorem cmdHigh_cmdWord : cmdHigh (cmdWord op ign sel high) = high := by
  apply BitVec.eq_of_getElem_eq
  intro i hi
  rw [cmdHigh, BitVec.getElem_extractLsb', cmdWord_getLsbD, if_neg (by omega), if_neg (by omega), if_neg (by omega)]
  simp [hi]

end word

/-- A CMD word is the word of its four fields. -/
theorem cmdWord_fields (w : Word) : cmdWord (cmdOp w) (cmdIgn w) (cmdSel w) (cmdHigh w) = w := by
  apply BitVec.eq_of_getLsbD_eq
  intro i hi
  rw [cmdWord_getLsbD]
  simp only [cmdOp, cmdIgn, cmdSel, cmdHigh, BitVec.getLsbD_extractLsb']
  split_ifs with h1 h2 h3
  · simp [h1]
  · simp [show i - 3 < 5 by omega, show 3 + (i - 3) = i by omega]
  · simp [show i - 8 < 4 by omega, show 8 + (i - 8) = i by omega]
  · simp [show i - 12 < 20 by omega, show 12 + (i - 12) = i by omega]

/-- CMD[9:8] are the low half of CMDSEL. -/
theorem cmdSelLo_eq (w : Word) : cmdSelLo w = (cmdSel w).extractLsb' 0 2 := by
  apply BitVec.eq_of_getLsbD_eq
  intro i hi
  simp only [cmdSelLo, cmdSel, BitVec.getLsbD_extractLsb', hi, decide_true, Bool.true_and,
    Nat.zero_add, decide_eq_true (show i < 4 by omega)]

theorem reservedSel_low {sel : BitVec 4} (h : 12 ≤ sel.toNat) : reservedSel (sel.extractLsb' 0 2) = sel := by
  revert sel; decide

theorem reservedSel_ge (x : BitVec 2) : 12 ≤ (reservedSel x).toNat := by revert x; decide

theorem lo_reservedSel (x : BitVec 2) : (reservedSel x).extractLsb' 0 2 = x := by revert x; decide

/-! The logical command index -/

@[simp] theorem Cmd.ofIndex_index (k : Cmd) : Cmd.ofIndex k.index = some k := by cases k <;> rfl

theorem Cmd.ofIndex_of_lt {sel : BitVec 4} (h : sel.toNat < 12) : ∃ k, Cmd.ofIndex sel = some k ∧ k.index = sel := by
  revert sel; decide

theorem Cmd.ofIndex_of_ge {sel : BitVec 4} (h : 12 ≤ sel.toNat) : Cmd.ofIndex sel = none := by
  revert sel; decide

theorem Cmd.index_lt (k : Cmd) : k.index.toNat < 12 := by cases k <;> decide

theorem Cmd.index_inj {k k' : Cmd} (h : k.index = k'.index) : k = k' := by
  have := congrArg Cmd.ofIndex h
  simpa using this

/-- The frame lengths in the 6 bits of `st.flen` and `st.offset`. -/
theorem Cmd.flen_toNat (k : Cmd) : (BitVec.ofNat 6 k.flen).toNat = k.flen := by cases k <;> rfl

theorem Cmd.flen_bounds (k : Cmd) : 3 ≤ k.flen ∧ k.flen ≤ 47 := by cases k <;> decide

/-! The frame -/

theorem frameInstr_wf (k : Cmd) (p : List Byte) (ck : Byte) :
    (frameInstr k p ck).wf = decide (p.length = k.len) := by
  cases k <;> rfl

theorem encode_frameInstr (c : Config) (k : Cmd) (p : List Byte) (ck : Byte) :
    encode c (frameInstr k p ck) = .frame (frameBytes c k p ck) := by
  cases k <;> rfl

/-- The bytes of a decoded frame, its instruction and its payload's length. -/
theorem decodeFrameAs_ok {c : Config} {k : Cmd} {bytes : List Byte} {i : Instr}
    (h : decodeFrameAs c k bytes = .ok i) :
    ∃ p ck, i = frameInstr k p ck ∧ p.length = k.len ∧ bytes = frameBytes c k p ck := by
  unfold decodeFrameAs at h
  split at h
  · cases h
  · next b rest =>
    split at h
    · cases h
    · next hb =>
      split at h
      · cases h
      · next hl =>
        cases h
        push Not at hl hb
        refine ⟨_, _, rfl, by simp; omega, ?_⟩
        rw [frameBytes, List.getD_eq_getElem _ _ (by omega), List.take_append_getElem,
          List.take_of_length_le (by omega), hb]

/-- The frame of a command decodes as that command's instruction. -/
theorem decodeFrameAs_frameBytes (c : Config) (k : Cmd) (p : List Byte) (ck : Byte) (h : p.length = k.len) :
    decodeFrameAs c k (frameBytes c k p ck) = .ok (frameInstr k p ck) := by
  have h1 : (p ++ [ck]).take k.len = p := by rw [← h]; simp
  have h2 : (p ++ [ck]).getD k.len 0 = ck := by rw [← h]; simp
  simp only [decodeFrameAs, frameBytes, ne_eq, not_true, if_false, List.length_append, List.length_cons,
    List.length_nil, h, h1, h2, Nat.zero_add]

/-- A frame that has its command byte and its length decodes. -/
theorem decodeFrameAs_of_length {c : Config} {k : Cmd} {bytes : List Byte} (h0 : bytes.getD 0 0 = c.code k)
    (hl : bytes.length = k.flen) : ∃ p ck, p.length = k.len ∧ bytes = frameBytes c k p ck ∧
      decodeFrameAs c k bytes = .ok (frameInstr k p ck) := by
  cases bytes with
  | nil => have := (Cmd.flen_bounds k).1; simp at hl; omega
  | cons b rest =>
    have hb : b = c.code k := by simpa using h0
    have hr : rest.length = k.len + 1 := by simp [Cmd.flen] at hl; omega
    have : decodeFrameAs c k (b :: rest) = .ok (frameInstr k (rest.take k.len) (rest.getD k.len 0)) := by
      simp only [decodeFrameAs, hb, hr, ne_eq, not_true, if_false]
    obtain ⟨p, ck, -, h2, h3⟩ := decodeFrameAs_ok this
    exact ⟨p, ck, h2, h3, h3 ▸ decodeFrameAs_frameBytes c k p ck h2⟩

/-- The codes of a well-formed configuration are pairwise distinct. -/
theorem Config.codes_pairwise {c : Config} (h : c.wf = true) : c.wireCodes.Pairwise (· ≠ ·) := by
  simp only [Config.wf, Bool.and_eq_true, Config.codesWf, decide_eq_true_eq] at h
  exact h.1.1.1

/-- The command that a lookup finds has the byte as its code. -/
theorem code_of_lookup {c : Config} {op : Op} {sel : BitVec 4} {pf : Bool} {b : Byte} {k : Cmd}
    (h : lookup c op sel pf b = some k) : c.code k = b := by
  unfold lookup at h
  split at h
  · next hb =>
    cases h
    unfold postflashSelect
    split_ifs <;> exact hb.symm
  · simpa using List.find?_some h

end Sys2Proof
end

