-- ==== Sys2Proof/Laws/Memory.lean ====
section
/-! SUPPORT. The laws of the byte memory: a read after a write, and the canonical form that every memory operation
keeps. -/

namespace Sys2Proof.Machine

@[simp] theorem Memory.read_nil (a : Nat) : Memory.read [] a = unlistedByte := rfl

theorem Memory.read_cons (c : Host.Cell) (m : Memory) (a : Nat) :
    Memory.read (c :: m) a = if c.1 = a then c.2 else Memory.read m a := rfl

/-- A byte that no cell lists reads as unlisted. -/
theorem Memory.read_of_not_mem {m : Memory} {a : Nat} (h : ∀ c ∈ m, c.1 ≠ a) : m.read a = unlistedByte := by
  induction m with
  | nil => rfl
  | cons c m ih =>
    rw [Memory.read_cons, if_neg (h c (by simp)), ih fun d hd => h d (by simp [hd])]

theorem Memory.read_erase (m : Memory) (a b : Nat) :
    (m.erase a).read b = if b = a then unlistedByte else m.read b := by
  induction m with
  | nil => simp [Memory.erase]
  | cons c m ih =>
    unfold Memory.erase at ih ⊢
    by_cases hc : c.1 = a
    · rw [List.filter_cons_of_neg (by simpa using hc), ih]
      split
      · rfl
      · next hb => rw [Memory.read_cons, if_neg (by rw [hc]; exact Ne.symm hb)]
    · rw [List.filter_cons_of_pos (by simpa using hc), Memory.read_cons, Memory.read_cons, ih]
      split
      · next hcb => rw [if_neg (by rw [← hcb]; exact hc)]
      · rfl

theorem Memory.read_place {m : Memory} {a : Nat} (h : ∀ c ∈ m, c.1 ≠ a) (v : Byte) (b : Nat) :
    (Memory.place a v m).read b = if b = a then v else m.read b := by
  induction m with
  | nil => simp [Memory.place, Memory.read_cons, eq_comm]
  | cons c m ih =>
    unfold Memory.place
    split
    · rw [Memory.read_cons]
      simp [eq_comm]
    · rw [Memory.read_cons, Memory.read_cons, ih fun d hd => h d (by simp [hd])]
      have := h c (by simp)
      split
      · next hcb => rw [if_neg (by rw [← hcb]; exact this)]
      · rfl

theorem Memory.erase_ne {m : Memory} {a : Nat} : ∀ c ∈ m.erase a, c.1 ≠ a := by
  intro c hc
  simpa using (List.mem_filter.mp hc).2

/-- A read after a write: the written byte at its address, every other byte as before. -/
@[simp] theorem Memory.read_write (m : Memory) (a : Nat) (v : Byte) (b : Nat) :
    (m.write a v).read b = if b = a then v else m.read b := by
  unfold Memory.write
  split
  · next h => rw [Memory.read_erase, h]
  · rw [Memory.read_place Memory.erase_ne, Memory.read_erase]
    split <;> simp_all

/-- A read after consecutive writes. -/
theorem Memory.read_writeBytes (m : Memory) (a : Nat) (vs : List Byte) (b : Nat) :
    (m.writeBytes a vs).read b = if a ≤ b ∧ b < a + vs.length then vs.getD (b - a) 0 else m.read b := by
  induction vs generalizing m a with
  | nil => simp [Memory.writeBytes]
  | cons v vs ih =>
    rw [Memory.writeBytes, ih, Memory.read_write]
    by_cases hb : b = a
    · subst hb; simp
    · by_cases h : a + 1 ≤ b ∧ b < a + 1 + vs.length
      · rw [if_pos h, if_pos (by simp; omega)]
        obtain ⟨n, hn⟩ : ∃ n, b - a = n + 1 := ⟨b - a - 1, by omega⟩
        rw [hn, List.getD_cons_succ, show b - (a + 1) = n by omega]
      · rw [if_neg h, if_neg hb, if_neg (by simp; omega)]

theorem getD_map_range (n : Nat) (f : Nat → Byte) (i : Nat) :
    ((List.range n).map f).getD i 0 = if i < n then f i else 0 := by
  by_cases h : i < n <;> simp [List.getD, h]

/-- A read after a whole frame is written to FBUF. -/
theorem Memory.read_writeFbuf (m : Memory) (f : List Byte) (b : Nat) :
    (m.writeFbuf f).read b =
      if fbufBase ≤ b ∧ b < fbufBase + 47 then f.getD (b - fbufBase) 0 else m.read b := by
  unfold Memory.writeFbuf
  rw [Memory.read_writeBytes]
  simp only [List.length_map, List.length_range]
  split
  · rw [getD_map_range, if_pos (by omega)]
  · rfl

/-- A read after all FIELD bytes are written. -/
theorem Memory.read_writeFields (m : Memory) (fv : List Byte) (b : Nat) :
    (m.writeFields fv).read b =
      if fieldBase ≤ b ∧ b < fieldBase + 64 then fv.getD (b - fieldBase) 0 else m.read b := by
  unfold Memory.writeFields
  rw [Memory.read_writeBytes]
  simp only [List.length_map, List.length_range]
  split
  · rw [getD_map_range, if_pos (by omega)]
  · rfl

theorem Memory.wf_iff (m : Memory) :
    m.wf = true ↔ (m.Pairwise fun c d => c.1 < d.1) ∧ ∀ c ∈ m, c.2 ≠ unlistedByte := by
  simp [Memory.wf]

theorem Memory.wf_nil : Memory.wf [] = true := rfl

theorem Memory.mem_place {a : Nat} {v : Byte} {m : Memory} {c : Host.Cell} :
    c ∈ Memory.place a v m ↔ c = (a, v) ∨ c ∈ m := by
  induction m with
  | nil => simp [Memory.place]
  | cons d m ih =>
    unfold Memory.place
    split
    · simp
    · simp only [List.mem_cons, ih]; tauto

theorem Memory.wf_erase {m : Memory} (h : m.wf = true) (a : Nat) : (m.erase a).wf = true := by
  rw [Memory.wf_iff] at h ⊢
  exact ⟨h.1.sublist List.filter_sublist, fun c hc => h.2 c (List.mem_filter.mp hc).1⟩

theorem Memory.wf_place {m : Memory} (h : m.wf = true) {a : Nat} (ha : ∀ c ∈ m, c.1 ≠ a) {v : Byte}
    (hv : v ≠ unlistedByte) : (Memory.place a v m).wf = true := by
  rw [Memory.wf_iff] at h ⊢
  refine ⟨?_, fun c hc => ?_⟩
  · induction m with
    | nil => simp [Memory.place]
    | cons d m ih =>
      have hd := List.pairwise_cons.mp h.1
      unfold Memory.place
      split
      · next hlt =>
        refine List.pairwise_cons.mpr ⟨fun c hc => ?_, h.1⟩
        rcases List.mem_cons.mp hc with rfl | hc
        · exact hlt
        · exact hlt.trans (hd.1 c hc)
      · next hlt =>
        have hda := ha d (by simp)
        refine List.pairwise_cons.mpr ⟨fun c hc => ?_, ?_⟩
        · rcases Memory.mem_place.mp hc with rfl | hc
          · show d.1 < a
            omega
          · exact hd.1 c hc
        · exact ih ⟨hd.2, fun c hc => h.2 c (by simp [hc])⟩ (fun c hc => ha c (by simp [hc]))
  · rcases Memory.mem_place.mp hc with rfl | hc
    · exact hv
    · exact h.2 c hc

/-- A byte write keeps the canonical form. -/
theorem Memory.wf_write {m : Memory} (h : m.wf = true) (a : Nat) (v : Byte) : (m.write a v).wf = true := by
  unfold Memory.write
  split
  · exact Memory.wf_erase h a
  · next hv => exact Memory.wf_place (Memory.wf_erase h a) Memory.erase_ne hv

/-- Consecutive byte writes keep the canonical form. -/
theorem Memory.wf_writeBytes {m : Memory} (h : m.wf = true) (a : Nat) (vs : List Byte) :
    (m.writeBytes a vs).wf = true := by
  induction vs generalizing m a with
  | nil => exact h
  | cons v vs ih => exact ih (Memory.wf_write h a v) (a + 1)

theorem Memory.wf_writeFbuf {m : Memory} (h : m.wf = true) (f : List Byte) : (m.writeFbuf f).wf = true :=
  Memory.wf_writeBytes h _ _

theorem Memory.wf_writeFields {m : Memory} (h : m.wf = true) (fv : List Byte) : (m.writeFields fv).wf = true :=
  Memory.wf_writeBytes h _ _

/-- Every cell after a write is an old one or the written one. -/
theorem Memory.mem_write {m : Memory} {a : Nat} {v : Byte} {c : Host.Cell} (h : c ∈ m.write a v) :
    c.1 = a ∨ c ∈ m := by
  unfold Memory.write at h
  split at h
  · exact .inr (List.mem_filter.mp h).1
  · rcases Memory.mem_place.mp h with rfl | h
    · exact .inl rfl
    · exact .inr (List.mem_filter.mp h).1

/-- Every cell after consecutive writes is an old one or in the written range. -/
theorem Memory.mem_writeBytes {m : Memory} {a : Nat} {vs : List Byte} {c : Host.Cell} (h : c ∈ m.writeBytes a vs) :
    (a ≤ c.1 ∧ c.1 < a + vs.length) ∨ c ∈ m := by
  induction vs generalizing m a with
  | nil => exact .inr h
  | cons v vs ih =>
    rcases ih h with h | h
    · exact .inl (by simp; omega)
    · rcases Memory.mem_write h with h | h
      · exact .inl (by simp; omega)
      · exact .inr h

/-- Two canonical memories that read alike are equal: equal memories are equal data. -/
theorem Memory.ext_of_read {m n : Memory} (hm : m.wf = true) (hn : n.wf = true) (h : ∀ a, m.read a = n.read a) :
    m = n := by
  rw [Memory.wf_iff] at hm hn
  induction m generalizing n with
  | nil =>
    cases n with
    | nil => rfl
    | cons d n =>
      have := h d.1
      rw [Memory.read_cons, if_pos rfl] at this
      exact absurd this.symm (hn.2 d (by simp))
  | cons c m ih =>
    have hc := List.pairwise_cons.mp hm.1
    cases n with
    | nil =>
      have := h c.1
      rw [Memory.read_cons, if_pos rfl] at this
      exact absurd this (hm.2 c (by simp))
    | cons d n =>
      have hd := List.pairwise_cons.mp hn.1
      have low {c : Host.Cell} {m : Memory} (hc : ∀ e ∈ m, c.1 < e.1) {a : Nat} (ha : a < c.1) :
          Memory.read (c :: m) a = unlistedByte :=
        Memory.read_of_not_mem fun e he => by
          rcases List.mem_cons.mp he with rfl | he
          · omega
          · have := hc e he; omega
      have hcd : c.1 = d.1 := by
        rcases Nat.lt_trichotomy c.1 d.1 with hlt | heq | hgt
        · have := h c.1
          rw [low hd.1 hlt, Memory.read_cons, if_pos rfl] at this
          exact absurd this (hm.2 c (by simp))
        · exact heq
        · have := h d.1
          rw [low hc.1 hgt, Memory.read_cons, if_pos rfl] at this
          exact absurd this.symm (hn.2 d (by simp))
      have hv : c.2 = d.2 := by
        have := h c.1
        rwa [Memory.read_cons, if_pos rfl, Memory.read_cons, if_pos hcd.symm] at this
      have hcell : c = d := Prod.ext hcd hv
      subst hcell
      congr 1
      refine ih ⟨hc.2, fun e he => hm.2 e (by simp [he])⟩ ⟨hd.2, fun e he => hn.2 e (by simp [he])⟩ fun a => ?_
      have := h a
      rw [Memory.read_cons, Memory.read_cons] at this
      by_cases ha : c.1 = a
      · rw [Memory.read_of_not_mem fun e he => by have := hc.1 e he; omega,
          Memory.read_of_not_mem fun e he => by have := hd.1 e he; omega]
      · rwa [if_neg ha, if_neg ha] at this

end Sys2Proof.Machine
end

