-- ==== Sys2Proof/Laws/State.lean ====
section
/-! SUPPORT. One lemma per field per named update of the state, each true by rfl. -/

namespace Sys2Proof.Machine

variable (s : State)

@[simp] theorem State.setCtrl_ie (a : Bool) (b : Bool) : (s.setCtrl a b).ie = a := rfl
@[simp] theorem State.setCtrl_pfSel (a : Bool) (b : Bool) : (s.setCtrl a b).pfSel = b := rfl
@[simp] theorem State.setCtrl_done (a : Bool) (b : Bool) : (s.setCtrl a b).done = s.done := rfl
@[simp] theorem State.setCtrl_rej (a : Bool) (b : Bool) : (s.setCtrl a b).rej = s.rej := rfl
@[simp] theorem State.setCtrl_result (a : Bool) (b : Bool) : (s.setCtrl a b).result = s.result := rfl
@[simp] theorem State.setCtrl_tmo (a : Bool) (b : Bool) : (s.setCtrl a b).tmo = s.tmo := rfl
@[simp] theorem State.setCtrl_timing0 (a : Bool) (b : Bool) : (s.setCtrl a b).timing0 = s.timing0 := rfl
@[simp] theorem State.setCtrl_timing1 (a : Bool) (b : Bool) : (s.setCtrl a b).timing1 = s.timing1 := rfl
@[simp] theorem State.setCtrl_anom0 (a : Bool) (b : Bool) : (s.setCtrl a b).anom0 = s.anom0 := rfl
@[simp] theorem State.setCtrl_anom1 (a : Bool) (b : Bool) : (s.setCtrl a b).anom1 = s.anom1 := rfl
@[simp] theorem State.setCtrl_mem (a : Bool) (b : Bool) : (s.setCtrl a b).mem = s.mem := rfl
@[simp] theorem State.setCtrl_busy (a : Bool) (b : Bool) : (s.setCtrl a b).busy = s.busy := rfl
@[simp] theorem State.setCtrl_op (a : Bool) (b : Bool) : (s.setCtrl a b).op = s.op := rfl
@[simp] theorem State.setCtrl_role (a : Bool) (b : Bool) : (s.setCtrl a b).role = s.role := rfl
@[simp] theorem State.setCtrl_hs (a : Bool) (b : Bool) : (s.setCtrl a b).hs = s.hs := rfl
@[simp] theorem State.setCtrl_bitn (a : Bool) (b : Bool) : (s.setCtrl a b).bitn = s.bitn := rfl
@[simp] theorem State.setCtrl_ph (a : Bool) (b : Bool) : (s.setCtrl a b).ph = s.ph := rfl
@[simp] theorem State.setCtrl_cnt (a : Bool) (b : Bool) : (s.setCtrl a b).cnt = s.cnt := rfl
@[simp] theorem State.setCtrl_offset (a : Bool) (b : Bool) : (s.setCtrl a b).offset = s.offset := rfl
@[simp] theorem State.setCtrl_flen (a : Bool) (b : Bool) : (s.setCtrl a b).flen = s.flen := rfl
@[simp] theorem State.setCtrl_cidx (a : Bool) (b : Bool) : (s.setCtrl a b).cidx = s.cidx := rfl
@[simp] theorem State.setCtrl_shreg (a : Bool) (b : Bool) : (s.setCtrl a b).shreg = s.shreg := rfl
@[simp] theorem State.setCtrl_shadow (a : Bool) (b : Bool) : (s.setCtrl a b).shadow = s.shadow := rfl
@[simp] theorem State.setCtrl_latched (a : Bool) (b : Bool) : (s.setCtrl a b).latched = s.latched := rfl
@[simp] theorem State.setCtrl_oe (a : Bool) (b : Bool) : (s.setCtrl a b).oe = s.oe := rfl
@[simp] theorem State.setCtrl_prev (a : Bool) (b : Bool) : (s.setCtrl a b).prev = s.prev := rfl
@[simp] theorem State.setCtrl_cfg (a : Bool) (b : Bool) : (s.setCtrl a b).cfg = s.cfg := rfl
@[simp] theorem State.setCtrl_inputs (a : Bool) (b : Bool) : (s.setCtrl a b).inputs = s.inputs := rfl
@[simp] theorem State.setCtrl_tick (a : Bool) (b : Bool) : (s.setCtrl a b).tick = s.tick := rfl
@[simp] theorem State.setCtrl_hRdata (a : Bool) (b : Bool) : (s.setCtrl a b).hRdata = s.hRdata := rfl

@[simp] theorem State.setFlags_ie (a : Bool) (b : Bool) : (s.setFlags a b).ie = s.ie := rfl
@[simp] theorem State.setFlags_pfSel (a : Bool) (b : Bool) : (s.setFlags a b).pfSel = s.pfSel := rfl
@[simp] theorem State.setFlags_done (a : Bool) (b : Bool) : (s.setFlags a b).done = a := rfl
@[simp] theorem State.setFlags_rej (a : Bool) (b : Bool) : (s.setFlags a b).rej = b := rfl
@[simp] theorem State.setFlags_result (a : Bool) (b : Bool) : (s.setFlags a b).result = s.result := rfl
@[simp] theorem State.setFlags_tmo (a : Bool) (b : Bool) : (s.setFlags a b).tmo = s.tmo := rfl
@[simp] theorem State.setFlags_timing0 (a : Bool) (b : Bool) : (s.setFlags a b).timing0 = s.timing0 := rfl
@[simp] theorem State.setFlags_timing1 (a : Bool) (b : Bool) : (s.setFlags a b).timing1 = s.timing1 := rfl
@[simp] theorem State.setFlags_anom0 (a : Bool) (b : Bool) : (s.setFlags a b).anom0 = s.anom0 := rfl
@[simp] theorem State.setFlags_anom1 (a : Bool) (b : Bool) : (s.setFlags a b).anom1 = s.anom1 := rfl
@[simp] theorem State.setFlags_mem (a : Bool) (b : Bool) : (s.setFlags a b).mem = s.mem := rfl
@[simp] theorem State.setFlags_busy (a : Bool) (b : Bool) : (s.setFlags a b).busy = s.busy := rfl
@[simp] theorem State.setFlags_op (a : Bool) (b : Bool) : (s.setFlags a b).op = s.op := rfl
@[simp] theorem State.setFlags_role (a : Bool) (b : Bool) : (s.setFlags a b).role = s.role := rfl
@[simp] theorem State.setFlags_hs (a : Bool) (b : Bool) : (s.setFlags a b).hs = s.hs := rfl
@[simp] theorem State.setFlags_bitn (a : Bool) (b : Bool) : (s.setFlags a b).bitn = s.bitn := rfl
@[simp] theorem State.setFlags_ph (a : Bool) (b : Bool) : (s.setFlags a b).ph = s.ph := rfl
@[simp] theorem State.setFlags_cnt (a : Bool) (b : Bool) : (s.setFlags a b).cnt = s.cnt := rfl
@[simp] theorem State.setFlags_offset (a : Bool) (b : Bool) : (s.setFlags a b).offset = s.offset := rfl
@[simp] theorem State.setFlags_flen (a : Bool) (b : Bool) : (s.setFlags a b).flen = s.flen := rfl
@[simp] theorem State.setFlags_cidx (a : Bool) (b : Bool) : (s.setFlags a b).cidx = s.cidx := rfl
@[simp] theorem State.setFlags_shreg (a : Bool) (b : Bool) : (s.setFlags a b).shreg = s.shreg := rfl
@[simp] theorem State.setFlags_shadow (a : Bool) (b : Bool) : (s.setFlags a b).shadow = s.shadow := rfl
@[simp] theorem State.setFlags_latched (a : Bool) (b : Bool) : (s.setFlags a b).latched = s.latched := rfl
@[simp] theorem State.setFlags_oe (a : Bool) (b : Bool) : (s.setFlags a b).oe = s.oe := rfl
@[simp] theorem State.setFlags_prev (a : Bool) (b : Bool) : (s.setFlags a b).prev = s.prev := rfl
@[simp] theorem State.setFlags_cfg (a : Bool) (b : Bool) : (s.setFlags a b).cfg = s.cfg := rfl
@[simp] theorem State.setFlags_inputs (a : Bool) (b : Bool) : (s.setFlags a b).inputs = s.inputs := rfl
@[simp] theorem State.setFlags_tick (a : Bool) (b : Bool) : (s.setFlags a b).tick = s.tick := rfl
@[simp] theorem State.setFlags_hRdata (a : Bool) (b : Bool) : (s.setFlags a b).hRdata = s.hRdata := rfl

@[simp] theorem State.setTmo_ie (v : Word) : (s.setTmo v).ie = s.ie := rfl
@[simp] theorem State.setTmo_pfSel (v : Word) : (s.setTmo v).pfSel = s.pfSel := rfl
@[simp] theorem State.setTmo_done (v : Word) : (s.setTmo v).done = s.done := rfl
@[simp] theorem State.setTmo_rej (v : Word) : (s.setTmo v).rej = s.rej := rfl
@[simp] theorem State.setTmo_result (v : Word) : (s.setTmo v).result = s.result := rfl
@[simp] theorem State.setTmo_tmo (v : Word) : (s.setTmo v).tmo = v := rfl
@[simp] theorem State.setTmo_timing0 (v : Word) : (s.setTmo v).timing0 = s.timing0 := rfl
@[simp] theorem State.setTmo_timing1 (v : Word) : (s.setTmo v).timing1 = s.timing1 := rfl
@[simp] theorem State.setTmo_anom0 (v : Word) : (s.setTmo v).anom0 = s.anom0 := rfl
@[simp] theorem State.setTmo_anom1 (v : Word) : (s.setTmo v).anom1 = s.anom1 := rfl
@[simp] theorem State.setTmo_mem (v : Word) : (s.setTmo v).mem = s.mem := rfl
@[simp] theorem State.setTmo_busy (v : Word) : (s.setTmo v).busy = s.busy := rfl
@[simp] theorem State.setTmo_op (v : Word) : (s.setTmo v).op = s.op := rfl
@[simp] theorem State.setTmo_role (v : Word) : (s.setTmo v).role = s.role := rfl
@[simp] theorem State.setTmo_hs (v : Word) : (s.setTmo v).hs = s.hs := rfl
@[simp] theorem State.setTmo_bitn (v : Word) : (s.setTmo v).bitn = s.bitn := rfl
@[simp] theorem State.setTmo_ph (v : Word) : (s.setTmo v).ph = s.ph := rfl
@[simp] theorem State.setTmo_cnt (v : Word) : (s.setTmo v).cnt = s.cnt := rfl
@[simp] theorem State.setTmo_offset (v : Word) : (s.setTmo v).offset = s.offset := rfl
@[simp] theorem State.setTmo_flen (v : Word) : (s.setTmo v).flen = s.flen := rfl
@[simp] theorem State.setTmo_cidx (v : Word) : (s.setTmo v).cidx = s.cidx := rfl
@[simp] theorem State.setTmo_shreg (v : Word) : (s.setTmo v).shreg = s.shreg := rfl
@[simp] theorem State.setTmo_shadow (v : Word) : (s.setTmo v).shadow = s.shadow := rfl
@[simp] theorem State.setTmo_latched (v : Word) : (s.setTmo v).latched = s.latched := rfl
@[simp] theorem State.setTmo_oe (v : Word) : (s.setTmo v).oe = s.oe := rfl
@[simp] theorem State.setTmo_prev (v : Word) : (s.setTmo v).prev = s.prev := rfl
@[simp] theorem State.setTmo_cfg (v : Word) : (s.setTmo v).cfg = s.cfg := rfl
@[simp] theorem State.setTmo_inputs (v : Word) : (s.setTmo v).inputs = s.inputs := rfl
@[simp] theorem State.setTmo_tick (v : Word) : (s.setTmo v).tick = s.tick := rfl
@[simp] theorem State.setTmo_hRdata (v : Word) : (s.setTmo v).hRdata = s.hRdata := rfl

@[simp] theorem State.setTiming0_ie (v : Word) : (s.setTiming0 v).ie = s.ie := rfl
@[simp] theorem State.setTiming0_pfSel (v : Word) : (s.setTiming0 v).pfSel = s.pfSel := rfl
@[simp] theorem State.setTiming0_done (v : Word) : (s.setTiming0 v).done = s.done := rfl
@[simp] theorem State.setTiming0_rej (v : Word) : (s.setTiming0 v).rej = s.rej := rfl
@[simp] theorem State.setTiming0_result (v : Word) : (s.setTiming0 v).result = s.result := rfl
@[simp] theorem State.setTiming0_tmo (v : Word) : (s.setTiming0 v).tmo = s.tmo := rfl
@[simp] theorem State.setTiming0_timing0 (v : Word) : (s.setTiming0 v).timing0 = v := rfl
@[simp] theorem State.setTiming0_timing1 (v : Word) : (s.setTiming0 v).timing1 = s.timing1 := rfl
@[simp] theorem State.setTiming0_anom0 (v : Word) : (s.setTiming0 v).anom0 = s.anom0 := rfl
@[simp] theorem State.setTiming0_anom1 (v : Word) : (s.setTiming0 v).anom1 = s.anom1 := rfl
@[simp] theorem State.setTiming0_mem (v : Word) : (s.setTiming0 v).mem = s.mem := rfl
@[simp] theorem State.setTiming0_busy (v : Word) : (s.setTiming0 v).busy = s.busy := rfl
@[simp] theorem State.setTiming0_op (v : Word) : (s.setTiming0 v).op = s.op := rfl
@[simp] theorem State.setTiming0_role (v : Word) : (s.setTiming0 v).role = s.role := rfl
@[simp] theorem State.setTiming0_hs (v : Word) : (s.setTiming0 v).hs = s.hs := rfl
@[simp] theorem State.setTiming0_bitn (v : Word) : (s.setTiming0 v).bitn = s.bitn := rfl
@[simp] theorem State.setTiming0_ph (v : Word) : (s.setTiming0 v).ph = s.ph := rfl
@[simp] theorem State.setTiming0_cnt (v : Word) : (s.setTiming0 v).cnt = s.cnt := rfl
@[simp] theorem State.setTiming0_offset (v : Word) : (s.setTiming0 v).offset = s.offset := rfl
@[simp] theorem State.setTiming0_flen (v : Word) : (s.setTiming0 v).flen = s.flen := rfl
@[simp] theorem State.setTiming0_cidx (v : Word) : (s.setTiming0 v).cidx = s.cidx := rfl
@[simp] theorem State.setTiming0_shreg (v : Word) : (s.setTiming0 v).shreg = s.shreg := rfl
@[simp] theorem State.setTiming0_shadow (v : Word) : (s.setTiming0 v).shadow = s.shadow := rfl
@[simp] theorem State.setTiming0_latched (v : Word) : (s.setTiming0 v).latched = s.latched := rfl
@[simp] theorem State.setTiming0_oe (v : Word) : (s.setTiming0 v).oe = s.oe := rfl
@[simp] theorem State.setTiming0_prev (v : Word) : (s.setTiming0 v).prev = s.prev := rfl
@[simp] theorem State.setTiming0_cfg (v : Word) : (s.setTiming0 v).cfg = s.cfg := rfl
@[simp] theorem State.setTiming0_inputs (v : Word) : (s.setTiming0 v).inputs = s.inputs := rfl
@[simp] theorem State.setTiming0_tick (v : Word) : (s.setTiming0 v).tick = s.tick := rfl
@[simp] theorem State.setTiming0_hRdata (v : Word) : (s.setTiming0 v).hRdata = s.hRdata := rfl

@[simp] theorem State.setTiming1_ie (v : Word) : (s.setTiming1 v).ie = s.ie := rfl
@[simp] theorem State.setTiming1_pfSel (v : Word) : (s.setTiming1 v).pfSel = s.pfSel := rfl
@[simp] theorem State.setTiming1_done (v : Word) : (s.setTiming1 v).done = s.done := rfl
@[simp] theorem State.setTiming1_rej (v : Word) : (s.setTiming1 v).rej = s.rej := rfl
@[simp] theorem State.setTiming1_result (v : Word) : (s.setTiming1 v).result = s.result := rfl
@[simp] theorem State.setTiming1_tmo (v : Word) : (s.setTiming1 v).tmo = s.tmo := rfl
@[simp] theorem State.setTiming1_timing0 (v : Word) : (s.setTiming1 v).timing0 = s.timing0 := rfl
@[simp] theorem State.setTiming1_timing1 (v : Word) : (s.setTiming1 v).timing1 = v := rfl
@[simp] theorem State.setTiming1_anom0 (v : Word) : (s.setTiming1 v).anom0 = s.anom0 := rfl
@[simp] theorem State.setTiming1_anom1 (v : Word) : (s.setTiming1 v).anom1 = s.anom1 := rfl
@[simp] theorem State.setTiming1_mem (v : Word) : (s.setTiming1 v).mem = s.mem := rfl
@[simp] theorem State.setTiming1_busy (v : Word) : (s.setTiming1 v).busy = s.busy := rfl
@[simp] theorem State.setTiming1_op (v : Word) : (s.setTiming1 v).op = s.op := rfl
@[simp] theorem State.setTiming1_role (v : Word) : (s.setTiming1 v).role = s.role := rfl
@[simp] theorem State.setTiming1_hs (v : Word) : (s.setTiming1 v).hs = s.hs := rfl
@[simp] theorem State.setTiming1_bitn (v : Word) : (s.setTiming1 v).bitn = s.bitn := rfl
@[simp] theorem State.setTiming1_ph (v : Word) : (s.setTiming1 v).ph = s.ph := rfl
@[simp] theorem State.setTiming1_cnt (v : Word) : (s.setTiming1 v).cnt = s.cnt := rfl
@[simp] theorem State.setTiming1_offset (v : Word) : (s.setTiming1 v).offset = s.offset := rfl
@[simp] theorem State.setTiming1_flen (v : Word) : (s.setTiming1 v).flen = s.flen := rfl
@[simp] theorem State.setTiming1_cidx (v : Word) : (s.setTiming1 v).cidx = s.cidx := rfl
@[simp] theorem State.setTiming1_shreg (v : Word) : (s.setTiming1 v).shreg = s.shreg := rfl
@[simp] theorem State.setTiming1_shadow (v : Word) : (s.setTiming1 v).shadow = s.shadow := rfl
@[simp] theorem State.setTiming1_latched (v : Word) : (s.setTiming1 v).latched = s.latched := rfl
@[simp] theorem State.setTiming1_oe (v : Word) : (s.setTiming1 v).oe = s.oe := rfl
@[simp] theorem State.setTiming1_prev (v : Word) : (s.setTiming1 v).prev = s.prev := rfl
@[simp] theorem State.setTiming1_cfg (v : Word) : (s.setTiming1 v).cfg = s.cfg := rfl
@[simp] theorem State.setTiming1_inputs (v : Word) : (s.setTiming1 v).inputs = s.inputs := rfl
@[simp] theorem State.setTiming1_tick (v : Word) : (s.setTiming1 v).tick = s.tick := rfl
@[simp] theorem State.setTiming1_hRdata (v : Word) : (s.setTiming1 v).hRdata = s.hRdata := rfl

@[simp] theorem State.setResult_ie (r : Word) (a : Word) (b : Word) : (s.setResult r a b).ie = s.ie := rfl
@[simp] theorem State.setResult_pfSel (r : Word) (a : Word) (b : Word) : (s.setResult r a b).pfSel = s.pfSel := rfl
@[simp] theorem State.setResult_done (r : Word) (a : Word) (b : Word) : (s.setResult r a b).done = s.done := rfl
@[simp] theorem State.setResult_rej (r : Word) (a : Word) (b : Word) : (s.setResult r a b).rej = s.rej := rfl
@[simp] theorem State.setResult_result (r : Word) (a : Word) (b : Word) : (s.setResult r a b).result = r := rfl
@[simp] theorem State.setResult_tmo (r : Word) (a : Word) (b : Word) : (s.setResult r a b).tmo = s.tmo := rfl
@[simp] theorem State.setResult_timing0 (r : Word) (a : Word) (b : Word) :
    (s.setResult r a b).timing0 = s.timing0 := rfl
@[simp] theorem State.setResult_timing1 (r : Word) (a : Word) (b : Word) :
    (s.setResult r a b).timing1 = s.timing1 := rfl
@[simp] theorem State.setResult_anom0 (r : Word) (a : Word) (b : Word) : (s.setResult r a b).anom0 = a := rfl
@[simp] theorem State.setResult_anom1 (r : Word) (a : Word) (b : Word) : (s.setResult r a b).anom1 = b := rfl
@[simp] theorem State.setResult_mem (r : Word) (a : Word) (b : Word) : (s.setResult r a b).mem = s.mem := rfl
@[simp] theorem State.setResult_busy (r : Word) (a : Word) (b : Word) : (s.setResult r a b).busy = s.busy := rfl
@[simp] theorem State.setResult_op (r : Word) (a : Word) (b : Word) : (s.setResult r a b).op = s.op := rfl
@[simp] theorem State.setResult_role (r : Word) (a : Word) (b : Word) : (s.setResult r a b).role = s.role := rfl
@[simp] theorem State.setResult_hs (r : Word) (a : Word) (b : Word) : (s.setResult r a b).hs = s.hs := rfl
@[simp] theorem State.setResult_bitn (r : Word) (a : Word) (b : Word) : (s.setResult r a b).bitn = s.bitn := rfl
@[simp] theorem State.setResult_ph (r : Word) (a : Word) (b : Word) : (s.setResult r a b).ph = s.ph := rfl
@[simp] theorem State.setResult_cnt (r : Word) (a : Word) (b : Word) : (s.setResult r a b).cnt = s.cnt := rfl
@[simp] theorem State.setResult_offset (r : Word) (a : Word) (b : Word) :
    (s.setResult r a b).offset = s.offset := rfl
@[simp] theorem State.setResult_flen (r : Word) (a : Word) (b : Word) : (s.setResult r a b).flen = s.flen := rfl
@[simp] theorem State.setResult_cidx (r : Word) (a : Word) (b : Word) : (s.setResult r a b).cidx = s.cidx := rfl
@[simp] theorem State.setResult_shreg (r : Word) (a : Word) (b : Word) : (s.setResult r a b).shreg = s.shreg := rfl
@[simp] theorem State.setResult_shadow (r : Word) (a : Word) (b : Word) :
    (s.setResult r a b).shadow = s.shadow := rfl
@[simp] theorem State.setResult_latched (r : Word) (a : Word) (b : Word) :
    (s.setResult r a b).latched = s.latched := rfl
@[simp] theorem State.setResult_oe (r : Word) (a : Word) (b : Word) : (s.setResult r a b).oe = s.oe := rfl
@[simp] theorem State.setResult_prev (r : Word) (a : Word) (b : Word) : (s.setResult r a b).prev = s.prev := rfl
@[simp] theorem State.setResult_cfg (r : Word) (a : Word) (b : Word) : (s.setResult r a b).cfg = s.cfg := rfl
@[simp] theorem State.setResult_inputs (r : Word) (a : Word) (b : Word) :
    (s.setResult r a b).inputs = s.inputs := rfl
@[simp] theorem State.setResult_tick (r : Word) (a : Word) (b : Word) : (s.setResult r a b).tick = s.tick := rfl
@[simp] theorem State.setResult_hRdata (r : Word) (a : Word) (b : Word) :
    (s.setResult r a b).hRdata = s.hRdata := rfl

@[simp] theorem State.setMem_ie (m : Memory) : (s.setMem m).ie = s.ie := rfl
@[simp] theorem State.setMem_pfSel (m : Memory) : (s.setMem m).pfSel = s.pfSel := rfl
@[simp] theorem State.setMem_done (m : Memory) : (s.setMem m).done = s.done := rfl
@[simp] theorem State.setMem_rej (m : Memory) : (s.setMem m).rej = s.rej := rfl
@[simp] theorem State.setMem_result (m : Memory) : (s.setMem m).result = s.result := rfl
@[simp] theorem State.setMem_tmo (m : Memory) : (s.setMem m).tmo = s.tmo := rfl
@[simp] theorem State.setMem_timing0 (m : Memory) : (s.setMem m).timing0 = s.timing0 := rfl
@[simp] theorem State.setMem_timing1 (m : Memory) : (s.setMem m).timing1 = s.timing1 := rfl
@[simp] theorem State.setMem_anom0 (m : Memory) : (s.setMem m).anom0 = s.anom0 := rfl
@[simp] theorem State.setMem_anom1 (m : Memory) : (s.setMem m).anom1 = s.anom1 := rfl
@[simp] theorem State.setMem_mem (m : Memory) : (s.setMem m).mem = m := rfl
@[simp] theorem State.setMem_busy (m : Memory) : (s.setMem m).busy = s.busy := rfl
@[simp] theorem State.setMem_op (m : Memory) : (s.setMem m).op = s.op := rfl
@[simp] theorem State.setMem_role (m : Memory) : (s.setMem m).role = s.role := rfl
@[simp] theorem State.setMem_hs (m : Memory) : (s.setMem m).hs = s.hs := rfl
@[simp] theorem State.setMem_bitn (m : Memory) : (s.setMem m).bitn = s.bitn := rfl
@[simp] theorem State.setMem_ph (m : Memory) : (s.setMem m).ph = s.ph := rfl
@[simp] theorem State.setMem_cnt (m : Memory) : (s.setMem m).cnt = s.cnt := rfl
@[simp] theorem State.setMem_offset (m : Memory) : (s.setMem m).offset = s.offset := rfl
@[simp] theorem State.setMem_flen (m : Memory) : (s.setMem m).flen = s.flen := rfl
@[simp] theorem State.setMem_cidx (m : Memory) : (s.setMem m).cidx = s.cidx := rfl
@[simp] theorem State.setMem_shreg (m : Memory) : (s.setMem m).shreg = s.shreg := rfl
@[simp] theorem State.setMem_shadow (m : Memory) : (s.setMem m).shadow = s.shadow := rfl
@[simp] theorem State.setMem_latched (m : Memory) : (s.setMem m).latched = s.latched := rfl
@[simp] theorem State.setMem_oe (m : Memory) : (s.setMem m).oe = s.oe := rfl
@[simp] theorem State.setMem_prev (m : Memory) : (s.setMem m).prev = s.prev := rfl
@[simp] theorem State.setMem_cfg (m : Memory) : (s.setMem m).cfg = s.cfg := rfl
@[simp] theorem State.setMem_inputs (m : Memory) : (s.setMem m).inputs = s.inputs := rfl
@[simp] theorem State.setMem_tick (m : Memory) : (s.setMem m).tick = s.tick := rfl
@[simp] theorem State.setMem_hRdata (m : Memory) : (s.setMem m).hRdata = s.hRdata := rfl

@[simp] theorem State.setPlace_ie (h : HS) (b : BitVec 3) (p : Bool) : (s.setPlace h b p).ie = s.ie := rfl
@[simp] theorem State.setPlace_pfSel (h : HS) (b : BitVec 3) (p : Bool) : (s.setPlace h b p).pfSel = s.pfSel := rfl
@[simp] theorem State.setPlace_done (h : HS) (b : BitVec 3) (p : Bool) : (s.setPlace h b p).done = s.done := rfl
@[simp] theorem State.setPlace_rej (h : HS) (b : BitVec 3) (p : Bool) : (s.setPlace h b p).rej = s.rej := rfl
@[simp] theorem State.setPlace_result (h : HS) (b : BitVec 3) (p : Bool) :
    (s.setPlace h b p).result = s.result := rfl
@[simp] theorem State.setPlace_tmo (h : HS) (b : BitVec 3) (p : Bool) : (s.setPlace h b p).tmo = s.tmo := rfl
@[simp] theorem State.setPlace_timing0 (h : HS) (b : BitVec 3) (p : Bool) :
    (s.setPlace h b p).timing0 = s.timing0 := rfl
@[simp] theorem State.setPlace_timing1 (h : HS) (b : BitVec 3) (p : Bool) :
    (s.setPlace h b p).timing1 = s.timing1 := rfl
@[simp] theorem State.setPlace_anom0 (h : HS) (b : BitVec 3) (p : Bool) : (s.setPlace h b p).anom0 = s.anom0 := rfl
@[simp] theorem State.setPlace_anom1 (h : HS) (b : BitVec 3) (p : Bool) : (s.setPlace h b p).anom1 = s.anom1 := rfl
@[simp] theorem State.setPlace_mem (h : HS) (b : BitVec 3) (p : Bool) : (s.setPlace h b p).mem = s.mem := rfl
@[simp] theorem State.setPlace_busy (h : HS) (b : BitVec 3) (p : Bool) : (s.setPlace h b p).busy = s.busy := rfl
@[simp] theorem State.setPlace_op (h : HS) (b : BitVec 3) (p : Bool) : (s.setPlace h b p).op = s.op := rfl
@[simp] theorem State.setPlace_role (h : HS) (b : BitVec 3) (p : Bool) : (s.setPlace h b p).role = s.role := rfl
@[simp] theorem State.setPlace_hs (h : HS) (b : BitVec 3) (p : Bool) : (s.setPlace h b p).hs = h := rfl
@[simp] theorem State.setPlace_bitn (h : HS) (b : BitVec 3) (p : Bool) : (s.setPlace h b p).bitn = b := rfl
@[simp] theorem State.setPlace_ph (h : HS) (b : BitVec 3) (p : Bool) : (s.setPlace h b p).ph = p := rfl
@[simp] theorem State.setPlace_cnt (h : HS) (b : BitVec 3) (p : Bool) : (s.setPlace h b p).cnt = s.cnt := rfl
@[simp] theorem State.setPlace_offset (h : HS) (b : BitVec 3) (p : Bool) :
    (s.setPlace h b p).offset = s.offset := rfl
@[simp] theorem State.setPlace_flen (h : HS) (b : BitVec 3) (p : Bool) : (s.setPlace h b p).flen = s.flen := rfl
@[simp] theorem State.setPlace_cidx (h : HS) (b : BitVec 3) (p : Bool) : (s.setPlace h b p).cidx = s.cidx := rfl
@[simp] theorem State.setPlace_shreg (h : HS) (b : BitVec 3) (p : Bool) : (s.setPlace h b p).shreg = s.shreg := rfl
@[simp] theorem State.setPlace_shadow (h : HS) (b : BitVec 3) (p : Bool) :
    (s.setPlace h b p).shadow = s.shadow := rfl
@[simp] theorem State.setPlace_latched (h : HS) (b : BitVec 3) (p : Bool) :
    (s.setPlace h b p).latched = s.latched := rfl
@[simp] theorem State.setPlace_oe (h : HS) (b : BitVec 3) (p : Bool) : (s.setPlace h b p).oe = s.oe := rfl
@[simp] theorem State.setPlace_prev (h : HS) (b : BitVec 3) (p : Bool) : (s.setPlace h b p).prev = s.prev := rfl
@[simp] theorem State.setPlace_cfg (h : HS) (b : BitVec 3) (p : Bool) : (s.setPlace h b p).cfg = s.cfg := rfl
@[simp] theorem State.setPlace_inputs (h : HS) (b : BitVec 3) (p : Bool) :
    (s.setPlace h b p).inputs = s.inputs := rfl
@[simp] theorem State.setPlace_tick (h : HS) (b : BitVec 3) (p : Bool) : (s.setPlace h b p).tick = s.tick := rfl
@[simp] theorem State.setPlace_hRdata (h : HS) (b : BitVec 3) (p : Bool) :
    (s.setPlace h b p).hRdata = s.hRdata := rfl

@[simp] theorem State.setCnt_ie (c : BitVec 32) : (s.setCnt c).ie = s.ie := rfl
@[simp] theorem State.setCnt_pfSel (c : BitVec 32) : (s.setCnt c).pfSel = s.pfSel := rfl
@[simp] theorem State.setCnt_done (c : BitVec 32) : (s.setCnt c).done = s.done := rfl
@[simp] theorem State.setCnt_rej (c : BitVec 32) : (s.setCnt c).rej = s.rej := rfl
@[simp] theorem State.setCnt_result (c : BitVec 32) : (s.setCnt c).result = s.result := rfl
@[simp] theorem State.setCnt_tmo (c : BitVec 32) : (s.setCnt c).tmo = s.tmo := rfl
@[simp] theorem State.setCnt_timing0 (c : BitVec 32) : (s.setCnt c).timing0 = s.timing0 := rfl
@[simp] theorem State.setCnt_timing1 (c : BitVec 32) : (s.setCnt c).timing1 = s.timing1 := rfl
@[simp] theorem State.setCnt_anom0 (c : BitVec 32) : (s.setCnt c).anom0 = s.anom0 := rfl
@[simp] theorem State.setCnt_anom1 (c : BitVec 32) : (s.setCnt c).anom1 = s.anom1 := rfl
@[simp] theorem State.setCnt_mem (c : BitVec 32) : (s.setCnt c).mem = s.mem := rfl
@[simp] theorem State.setCnt_busy (c : BitVec 32) : (s.setCnt c).busy = s.busy := rfl
@[simp] theorem State.setCnt_op (c : BitVec 32) : (s.setCnt c).op = s.op := rfl
@[simp] theorem State.setCnt_role (c : BitVec 32) : (s.setCnt c).role = s.role := rfl
@[simp] theorem State.setCnt_hs (c : BitVec 32) : (s.setCnt c).hs = s.hs := rfl
@[simp] theorem State.setCnt_bitn (c : BitVec 32) : (s.setCnt c).bitn = s.bitn := rfl
@[simp] theorem State.setCnt_ph (c : BitVec 32) : (s.setCnt c).ph = s.ph := rfl
@[simp] theorem State.setCnt_cnt (c : BitVec 32) : (s.setCnt c).cnt = c := rfl
@[simp] theorem State.setCnt_offset (c : BitVec 32) : (s.setCnt c).offset = s.offset := rfl
@[simp] theorem State.setCnt_flen (c : BitVec 32) : (s.setCnt c).flen = s.flen := rfl
@[simp] theorem State.setCnt_cidx (c : BitVec 32) : (s.setCnt c).cidx = s.cidx := rfl
@[simp] theorem State.setCnt_shreg (c : BitVec 32) : (s.setCnt c).shreg = s.shreg := rfl
@[simp] theorem State.setCnt_shadow (c : BitVec 32) : (s.setCnt c).shadow = s.shadow := rfl
@[simp] theorem State.setCnt_latched (c : BitVec 32) : (s.setCnt c).latched = s.latched := rfl
@[simp] theorem State.setCnt_oe (c : BitVec 32) : (s.setCnt c).oe = s.oe := rfl
@[simp] theorem State.setCnt_prev (c : BitVec 32) : (s.setCnt c).prev = s.prev := rfl
@[simp] theorem State.setCnt_cfg (c : BitVec 32) : (s.setCnt c).cfg = s.cfg := rfl
@[simp] theorem State.setCnt_inputs (c : BitVec 32) : (s.setCnt c).inputs = s.inputs := rfl
@[simp] theorem State.setCnt_tick (c : BitVec 32) : (s.setCnt c).tick = s.tick := rfl
@[simp] theorem State.setCnt_hRdata (c : BitVec 32) : (s.setCnt c).hRdata = s.hRdata := rfl

@[simp] theorem State.setOffset_ie (n : BitVec 6) : (s.setOffset n).ie = s.ie := rfl
@[simp] theorem State.setOffset_pfSel (n : BitVec 6) : (s.setOffset n).pfSel = s.pfSel := rfl
@[simp] theorem State.setOffset_done (n : BitVec 6) : (s.setOffset n).done = s.done := rfl
@[simp] theorem State.setOffset_rej (n : BitVec 6) : (s.setOffset n).rej = s.rej := rfl
@[simp] theorem State.setOffset_result (n : BitVec 6) : (s.setOffset n).result = s.result := rfl
@[simp] theorem State.setOffset_tmo (n : BitVec 6) : (s.setOffset n).tmo = s.tmo := rfl
@[simp] theorem State.setOffset_timing0 (n : BitVec 6) : (s.setOffset n).timing0 = s.timing0 := rfl
@[simp] theorem State.setOffset_timing1 (n : BitVec 6) : (s.setOffset n).timing1 = s.timing1 := rfl
@[simp] theorem State.setOffset_anom0 (n : BitVec 6) : (s.setOffset n).anom0 = s.anom0 := rfl
@[simp] theorem State.setOffset_anom1 (n : BitVec 6) : (s.setOffset n).anom1 = s.anom1 := rfl
@[simp] theorem State.setOffset_mem (n : BitVec 6) : (s.setOffset n).mem = s.mem := rfl
@[simp] theorem State.setOffset_busy (n : BitVec 6) : (s.setOffset n).busy = s.busy := rfl
@[simp] theorem State.setOffset_op (n : BitVec 6) : (s.setOffset n).op = s.op := rfl
@[simp] theorem State.setOffset_role (n : BitVec 6) : (s.setOffset n).role = s.role := rfl
@[simp] theorem State.setOffset_hs (n : BitVec 6) : (s.setOffset n).hs = s.hs := rfl
@[simp] theorem State.setOffset_bitn (n : BitVec 6) : (s.setOffset n).bitn = s.bitn := rfl
@[simp] theorem State.setOffset_ph (n : BitVec 6) : (s.setOffset n).ph = s.ph := rfl
@[simp] theorem State.setOffset_cnt (n : BitVec 6) : (s.setOffset n).cnt = s.cnt := rfl
@[simp] theorem State.setOffset_offset (n : BitVec 6) : (s.setOffset n).offset = n := rfl
@[simp] theorem State.setOffset_flen (n : BitVec 6) : (s.setOffset n).flen = s.flen := rfl
@[simp] theorem State.setOffset_cidx (n : BitVec 6) : (s.setOffset n).cidx = s.cidx := rfl
@[simp] theorem State.setOffset_shreg (n : BitVec 6) : (s.setOffset n).shreg = s.shreg := rfl
@[simp] theorem State.setOffset_shadow (n : BitVec 6) : (s.setOffset n).shadow = s.shadow := rfl
@[simp] theorem State.setOffset_latched (n : BitVec 6) : (s.setOffset n).latched = s.latched := rfl
@[simp] theorem State.setOffset_oe (n : BitVec 6) : (s.setOffset n).oe = s.oe := rfl
@[simp] theorem State.setOffset_prev (n : BitVec 6) : (s.setOffset n).prev = s.prev := rfl
@[simp] theorem State.setOffset_cfg (n : BitVec 6) : (s.setOffset n).cfg = s.cfg := rfl
@[simp] theorem State.setOffset_inputs (n : BitVec 6) : (s.setOffset n).inputs = s.inputs := rfl
@[simp] theorem State.setOffset_tick (n : BitVec 6) : (s.setOffset n).tick = s.tick := rfl
@[simp] theorem State.setOffset_hRdata (n : BitVec 6) : (s.setOffset n).hRdata = s.hRdata := rfl

@[simp] theorem State.setFrame_ie (k : Option Cmd) (n : BitVec 6) : (s.setFrame k n).ie = s.ie := rfl
@[simp] theorem State.setFrame_pfSel (k : Option Cmd) (n : BitVec 6) : (s.setFrame k n).pfSel = s.pfSel := rfl
@[simp] theorem State.setFrame_done (k : Option Cmd) (n : BitVec 6) : (s.setFrame k n).done = s.done := rfl
@[simp] theorem State.setFrame_rej (k : Option Cmd) (n : BitVec 6) : (s.setFrame k n).rej = s.rej := rfl
@[simp] theorem State.setFrame_result (k : Option Cmd) (n : BitVec 6) : (s.setFrame k n).result = s.result := rfl
@[simp] theorem State.setFrame_tmo (k : Option Cmd) (n : BitVec 6) : (s.setFrame k n).tmo = s.tmo := rfl
@[simp] theorem State.setFrame_timing0 (k : Option Cmd) (n : BitVec 6) : (s.setFrame k n).timing0 = s.timing0 := rfl
@[simp] theorem State.setFrame_timing1 (k : Option Cmd) (n : BitVec 6) : (s.setFrame k n).timing1 = s.timing1 := rfl
@[simp] theorem State.setFrame_anom0 (k : Option Cmd) (n : BitVec 6) : (s.setFrame k n).anom0 = s.anom0 := rfl
@[simp] theorem State.setFrame_anom1 (k : Option Cmd) (n : BitVec 6) : (s.setFrame k n).anom1 = s.anom1 := rfl
@[simp] theorem State.setFrame_mem (k : Option Cmd) (n : BitVec 6) : (s.setFrame k n).mem = s.mem := rfl
@[simp] theorem State.setFrame_busy (k : Option Cmd) (n : BitVec 6) : (s.setFrame k n).busy = s.busy := rfl
@[simp] theorem State.setFrame_op (k : Option Cmd) (n : BitVec 6) : (s.setFrame k n).op = s.op := rfl
@[simp] theorem State.setFrame_role (k : Option Cmd) (n : BitVec 6) : (s.setFrame k n).role = s.role := rfl
@[simp] theorem State.setFrame_hs (k : Option Cmd) (n : BitVec 6) : (s.setFrame k n).hs = s.hs := rfl
@[simp] theorem State.setFrame_bitn (k : Option Cmd) (n : BitVec 6) : (s.setFrame k n).bitn = s.bitn := rfl
@[simp] theorem State.setFrame_ph (k : Option Cmd) (n : BitVec 6) : (s.setFrame k n).ph = s.ph := rfl
@[simp] theorem State.setFrame_cnt (k : Option Cmd) (n : BitVec 6) : (s.setFrame k n).cnt = s.cnt := rfl
@[simp] theorem State.setFrame_offset (k : Option Cmd) (n : BitVec 6) : (s.setFrame k n).offset = s.offset := rfl
@[simp] theorem State.setFrame_flen (k : Option Cmd) (n : BitVec 6) : (s.setFrame k n).flen = n := rfl
@[simp] theorem State.setFrame_cidx (k : Option Cmd) (n : BitVec 6) : (s.setFrame k n).cidx = k := rfl
@[simp] theorem State.setFrame_shreg (k : Option Cmd) (n : BitVec 6) : (s.setFrame k n).shreg = s.shreg := rfl
@[simp] theorem State.setFrame_shadow (k : Option Cmd) (n : BitVec 6) : (s.setFrame k n).shadow = s.shadow := rfl
@[simp] theorem State.setFrame_latched (k : Option Cmd) (n : BitVec 6) : (s.setFrame k n).latched = s.latched := rfl
@[simp] theorem State.setFrame_oe (k : Option Cmd) (n : BitVec 6) : (s.setFrame k n).oe = s.oe := rfl
@[simp] theorem State.setFrame_prev (k : Option Cmd) (n : BitVec 6) : (s.setFrame k n).prev = s.prev := rfl
@[simp] theorem State.setFrame_cfg (k : Option Cmd) (n : BitVec 6) : (s.setFrame k n).cfg = s.cfg := rfl
@[simp] theorem State.setFrame_inputs (k : Option Cmd) (n : BitVec 6) : (s.setFrame k n).inputs = s.inputs := rfl
@[simp] theorem State.setFrame_tick (k : Option Cmd) (n : BitVec 6) : (s.setFrame k n).tick = s.tick := rfl
@[simp] theorem State.setFrame_hRdata (k : Option Cmd) (n : BitVec 6) : (s.setFrame k n).hRdata = s.hRdata := rfl

@[simp] theorem State.setShreg_ie (v : Byte) : (s.setShreg v).ie = s.ie := rfl
@[simp] theorem State.setShreg_pfSel (v : Byte) : (s.setShreg v).pfSel = s.pfSel := rfl
@[simp] theorem State.setShreg_done (v : Byte) : (s.setShreg v).done = s.done := rfl
@[simp] theorem State.setShreg_rej (v : Byte) : (s.setShreg v).rej = s.rej := rfl
@[simp] theorem State.setShreg_result (v : Byte) : (s.setShreg v).result = s.result := rfl
@[simp] theorem State.setShreg_tmo (v : Byte) : (s.setShreg v).tmo = s.tmo := rfl
@[simp] theorem State.setShreg_timing0 (v : Byte) : (s.setShreg v).timing0 = s.timing0 := rfl
@[simp] theorem State.setShreg_timing1 (v : Byte) : (s.setShreg v).timing1 = s.timing1 := rfl
@[simp] theorem State.setShreg_anom0 (v : Byte) : (s.setShreg v).anom0 = s.anom0 := rfl
@[simp] theorem State.setShreg_anom1 (v : Byte) : (s.setShreg v).anom1 = s.anom1 := rfl
@[simp] theorem State.setShreg_mem (v : Byte) : (s.setShreg v).mem = s.mem := rfl
@[simp] theorem State.setShreg_busy (v : Byte) : (s.setShreg v).busy = s.busy := rfl
@[simp] theorem State.setShreg_op (v : Byte) : (s.setShreg v).op = s.op := rfl
@[simp] theorem State.setShreg_role (v : Byte) : (s.setShreg v).role = s.role := rfl
@[simp] theorem State.setShreg_hs (v : Byte) : (s.setShreg v).hs = s.hs := rfl
@[simp] theorem State.setShreg_bitn (v : Byte) : (s.setShreg v).bitn = s.bitn := rfl
@[simp] theorem State.setShreg_ph (v : Byte) : (s.setShreg v).ph = s.ph := rfl
@[simp] theorem State.setShreg_cnt (v : Byte) : (s.setShreg v).cnt = s.cnt := rfl
@[simp] theorem State.setShreg_offset (v : Byte) : (s.setShreg v).offset = s.offset := rfl
@[simp] theorem State.setShreg_flen (v : Byte) : (s.setShreg v).flen = s.flen := rfl
@[simp] theorem State.setShreg_cidx (v : Byte) : (s.setShreg v).cidx = s.cidx := rfl
@[simp] theorem State.setShreg_shreg (v : Byte) : (s.setShreg v).shreg = v := rfl
@[simp] theorem State.setShreg_shadow (v : Byte) : (s.setShreg v).shadow = s.shadow := rfl
@[simp] theorem State.setShreg_latched (v : Byte) : (s.setShreg v).latched = s.latched := rfl
@[simp] theorem State.setShreg_oe (v : Byte) : (s.setShreg v).oe = s.oe := rfl
@[simp] theorem State.setShreg_prev (v : Byte) : (s.setShreg v).prev = s.prev := rfl
@[simp] theorem State.setShreg_cfg (v : Byte) : (s.setShreg v).cfg = s.cfg := rfl
@[simp] theorem State.setShreg_inputs (v : Byte) : (s.setShreg v).inputs = s.inputs := rfl
@[simp] theorem State.setShreg_tick (v : Byte) : (s.setShreg v).tick = s.tick := rfl
@[simp] theorem State.setShreg_hRdata (v : Byte) : (s.setShreg v).hRdata = s.hRdata := rfl

@[simp] theorem State.setShadow_ie (m : Memory) : (s.setShadow m).ie = s.ie := rfl
@[simp] theorem State.setShadow_pfSel (m : Memory) : (s.setShadow m).pfSel = s.pfSel := rfl
@[simp] theorem State.setShadow_done (m : Memory) : (s.setShadow m).done = s.done := rfl
@[simp] theorem State.setShadow_rej (m : Memory) : (s.setShadow m).rej = s.rej := rfl
@[simp] theorem State.setShadow_result (m : Memory) : (s.setShadow m).result = s.result := rfl
@[simp] theorem State.setShadow_tmo (m : Memory) : (s.setShadow m).tmo = s.tmo := rfl
@[simp] theorem State.setShadow_timing0 (m : Memory) : (s.setShadow m).timing0 = s.timing0 := rfl
@[simp] theorem State.setShadow_timing1 (m : Memory) : (s.setShadow m).timing1 = s.timing1 := rfl
@[simp] theorem State.setShadow_anom0 (m : Memory) : (s.setShadow m).anom0 = s.anom0 := rfl
@[simp] theorem State.setShadow_anom1 (m : Memory) : (s.setShadow m).anom1 = s.anom1 := rfl
@[simp] theorem State.setShadow_mem (m : Memory) : (s.setShadow m).mem = s.mem := rfl
@[simp] theorem State.setShadow_busy (m : Memory) : (s.setShadow m).busy = s.busy := rfl
@[simp] theorem State.setShadow_op (m : Memory) : (s.setShadow m).op = s.op := rfl
@[simp] theorem State.setShadow_role (m : Memory) : (s.setShadow m).role = s.role := rfl
@[simp] theorem State.setShadow_hs (m : Memory) : (s.setShadow m).hs = s.hs := rfl
@[simp] theorem State.setShadow_bitn (m : Memory) : (s.setShadow m).bitn = s.bitn := rfl
@[simp] theorem State.setShadow_ph (m : Memory) : (s.setShadow m).ph = s.ph := rfl
@[simp] theorem State.setShadow_cnt (m : Memory) : (s.setShadow m).cnt = s.cnt := rfl
@[simp] theorem State.setShadow_offset (m : Memory) : (s.setShadow m).offset = s.offset := rfl
@[simp] theorem State.setShadow_flen (m : Memory) : (s.setShadow m).flen = s.flen := rfl
@[simp] theorem State.setShadow_cidx (m : Memory) : (s.setShadow m).cidx = s.cidx := rfl
@[simp] theorem State.setShadow_shreg (m : Memory) : (s.setShadow m).shreg = s.shreg := rfl
@[simp] theorem State.setShadow_shadow (m : Memory) : (s.setShadow m).shadow = m := rfl
@[simp] theorem State.setShadow_latched (m : Memory) : (s.setShadow m).latched = s.latched := rfl
@[simp] theorem State.setShadow_oe (m : Memory) : (s.setShadow m).oe = s.oe := rfl
@[simp] theorem State.setShadow_prev (m : Memory) : (s.setShadow m).prev = s.prev := rfl
@[simp] theorem State.setShadow_cfg (m : Memory) : (s.setShadow m).cfg = s.cfg := rfl
@[simp] theorem State.setShadow_inputs (m : Memory) : (s.setShadow m).inputs = s.inputs := rfl
@[simp] theorem State.setShadow_tick (m : Memory) : (s.setShadow m).tick = s.tick := rfl
@[simp] theorem State.setShadow_hRdata (m : Memory) : (s.setShadow m).hRdata = s.hRdata := rfl

@[simp] theorem State.setOe_ie (l : Lines) : (s.setOe l).ie = s.ie := rfl
@[simp] theorem State.setOe_pfSel (l : Lines) : (s.setOe l).pfSel = s.pfSel := rfl
@[simp] theorem State.setOe_done (l : Lines) : (s.setOe l).done = s.done := rfl
@[simp] theorem State.setOe_rej (l : Lines) : (s.setOe l).rej = s.rej := rfl
@[simp] theorem State.setOe_result (l : Lines) : (s.setOe l).result = s.result := rfl
@[simp] theorem State.setOe_tmo (l : Lines) : (s.setOe l).tmo = s.tmo := rfl
@[simp] theorem State.setOe_timing0 (l : Lines) : (s.setOe l).timing0 = s.timing0 := rfl
@[simp] theorem State.setOe_timing1 (l : Lines) : (s.setOe l).timing1 = s.timing1 := rfl
@[simp] theorem State.setOe_anom0 (l : Lines) : (s.setOe l).anom0 = s.anom0 := rfl
@[simp] theorem State.setOe_anom1 (l : Lines) : (s.setOe l).anom1 = s.anom1 := rfl
@[simp] theorem State.setOe_mem (l : Lines) : (s.setOe l).mem = s.mem := rfl
@[simp] theorem State.setOe_busy (l : Lines) : (s.setOe l).busy = s.busy := rfl
@[simp] theorem State.setOe_op (l : Lines) : (s.setOe l).op = s.op := rfl
@[simp] theorem State.setOe_role (l : Lines) : (s.setOe l).role = s.role := rfl
@[simp] theorem State.setOe_hs (l : Lines) : (s.setOe l).hs = s.hs := rfl
@[simp] theorem State.setOe_bitn (l : Lines) : (s.setOe l).bitn = s.bitn := rfl
@[simp] theorem State.setOe_ph (l : Lines) : (s.setOe l).ph = s.ph := rfl
@[simp] theorem State.setOe_cnt (l : Lines) : (s.setOe l).cnt = s.cnt := rfl
@[simp] theorem State.setOe_offset (l : Lines) : (s.setOe l).offset = s.offset := rfl
@[simp] theorem State.setOe_flen (l : Lines) : (s.setOe l).flen = s.flen := rfl
@[simp] theorem State.setOe_cidx (l : Lines) : (s.setOe l).cidx = s.cidx := rfl
@[simp] theorem State.setOe_shreg (l : Lines) : (s.setOe l).shreg = s.shreg := rfl
@[simp] theorem State.setOe_shadow (l : Lines) : (s.setOe l).shadow = s.shadow := rfl
@[simp] theorem State.setOe_latched (l : Lines) : (s.setOe l).latched = s.latched := rfl
@[simp] theorem State.setOe_oe (l : Lines) : (s.setOe l).oe = l := rfl
@[simp] theorem State.setOe_prev (l : Lines) : (s.setOe l).prev = s.prev := rfl
@[simp] theorem State.setOe_cfg (l : Lines) : (s.setOe l).cfg = s.cfg := rfl
@[simp] theorem State.setOe_inputs (l : Lines) : (s.setOe l).inputs = s.inputs := rfl
@[simp] theorem State.setOe_tick (l : Lines) : (s.setOe l).tick = s.tick := rfl
@[simp] theorem State.setOe_hRdata (l : Lines) : (s.setOe l).hRdata = s.hRdata := rfl

@[simp] theorem State.openSession_ie (o : Op) (r : Role) (l : Latched) : (s.openSession o r l).ie = s.ie := rfl
@[simp] theorem State.openSession_pfSel (o : Op) (r : Role) (l : Latched) :
    (s.openSession o r l).pfSel = s.pfSel := rfl
@[simp] theorem State.openSession_done (o : Op) (r : Role) (l : Latched) : (s.openSession o r l).done = false := rfl
@[simp] theorem State.openSession_rej (o : Op) (r : Role) (l : Latched) : (s.openSession o r l).rej = s.rej := rfl
@[simp] theorem State.openSession_result (o : Op) (r : Role) (l : Latched) :
    (s.openSession o r l).result = s.result := rfl
@[simp] theorem State.openSession_tmo (o : Op) (r : Role) (l : Latched) : (s.openSession o r l).tmo = s.tmo := rfl
@[simp] theorem State.openSession_timing0 (o : Op) (r : Role) (l : Latched) :
    (s.openSession o r l).timing0 = s.timing0 := rfl
@[simp] theorem State.openSession_timing1 (o : Op) (r : Role) (l : Latched) :
    (s.openSession o r l).timing1 = s.timing1 := rfl
@[simp] theorem State.openSession_anom0 (o : Op) (r : Role) (l : Latched) :
    (s.openSession o r l).anom0 = s.anom0 := rfl
@[simp] theorem State.openSession_anom1 (o : Op) (r : Role) (l : Latched) :
    (s.openSession o r l).anom1 = s.anom1 := rfl
@[simp] theorem State.openSession_mem (o : Op) (r : Role) (l : Latched) : (s.openSession o r l).mem = s.mem := rfl
@[simp] theorem State.openSession_busy (o : Op) (r : Role) (l : Latched) : (s.openSession o r l).busy = true := rfl
@[simp] theorem State.openSession_op (o : Op) (r : Role) (l : Latched) : (s.openSession o r l).op = o := rfl
@[simp] theorem State.openSession_role (o : Op) (r : Role) (l : Latched) : (s.openSession o r l).role = r := rfl
@[simp] theorem State.openSession_hs (o : Op) (r : Role) (l : Latched) : (s.openSession o r l).hs = .idle := rfl
@[simp] theorem State.openSession_bitn (o : Op) (r : Role) (l : Latched) : (s.openSession o r l).bitn = 0 := rfl
@[simp] theorem State.openSession_ph (o : Op) (r : Role) (l : Latched) : (s.openSession o r l).ph = false := rfl
@[simp] theorem State.openSession_cnt (o : Op) (r : Role) (l : Latched) : (s.openSession o r l).cnt = 0 := rfl
@[simp] theorem State.openSession_offset (o : Op) (r : Role) (l : Latched) : (s.openSession o r l).offset = 0 := rfl
@[simp] theorem State.openSession_flen (o : Op) (r : Role) (l : Latched) : (s.openSession o r l).flen = 0 := rfl
@[simp] theorem State.openSession_cidx (o : Op) (r : Role) (l : Latched) : (s.openSession o r l).cidx = none := rfl
@[simp] theorem State.openSession_shreg (o : Op) (r : Role) (l : Latched) :
    (s.openSession o r l).shreg = s.shreg := rfl
@[simp] theorem State.openSession_shadow (o : Op) (r : Role) (l : Latched) :
    (s.openSession o r l).shadow = s.shadow := rfl
@[simp] theorem State.openSession_latched (o : Op) (r : Role) (l : Latched) :
    (s.openSession o r l).latched = l := rfl
@[simp] theorem State.openSession_oe (o : Op) (r : Role) (l : Latched) : (s.openSession o r l).oe = s.oe := rfl
@[simp] theorem State.openSession_prev (o : Op) (r : Role) (l : Latched) :
    (s.openSession o r l).prev = s.prev := rfl
@[simp] theorem State.openSession_cfg (o : Op) (r : Role) (l : Latched) : (s.openSession o r l).cfg = s.cfg := rfl
@[simp] theorem State.openSession_inputs (o : Op) (r : Role) (l : Latched) :
    (s.openSession o r l).inputs = s.inputs := rfl
@[simp] theorem State.openSession_tick (o : Op) (r : Role) (l : Latched) :
    (s.openSession o r l).tick = s.tick := rfl
@[simp] theorem State.openSession_hRdata (o : Op) (r : Role) (l : Latched) :
    (s.openSession o r l).hRdata = s.hRdata := rfl

@[simp] theorem State.closeSession_ie (h : HS) : (s.closeSession h).ie = s.ie := rfl
@[simp] theorem State.closeSession_pfSel (h : HS) : (s.closeSession h).pfSel = s.pfSel := rfl
@[simp] theorem State.closeSession_done (h : HS) : (s.closeSession h).done = true := rfl
@[simp] theorem State.closeSession_rej (h : HS) : (s.closeSession h).rej = s.rej := rfl
@[simp] theorem State.closeSession_result (h : HS) : (s.closeSession h).result = s.result := rfl
@[simp] theorem State.closeSession_tmo (h : HS) : (s.closeSession h).tmo = s.tmo := rfl
@[simp] theorem State.closeSession_timing0 (h : HS) : (s.closeSession h).timing0 = s.timing0 := rfl
@[simp] theorem State.closeSession_timing1 (h : HS) : (s.closeSession h).timing1 = s.timing1 := rfl
@[simp] theorem State.closeSession_anom0 (h : HS) : (s.closeSession h).anom0 = s.anom0 := rfl
@[simp] theorem State.closeSession_anom1 (h : HS) : (s.closeSession h).anom1 = s.anom1 := rfl
@[simp] theorem State.closeSession_mem (h : HS) : (s.closeSession h).mem = s.mem := rfl
@[simp] theorem State.closeSession_busy (h : HS) : (s.closeSession h).busy = false := rfl
@[simp] theorem State.closeSession_op (h : HS) : (s.closeSession h).op = .none := rfl
@[simp] theorem State.closeSession_role (h : HS) : (s.closeSession h).role = .none := rfl
@[simp] theorem State.closeSession_hs (h : HS) : (s.closeSession h).hs = h := rfl
@[simp] theorem State.closeSession_bitn (h : HS) : (s.closeSession h).bitn = 0 := rfl
@[simp] theorem State.closeSession_ph (h : HS) : (s.closeSession h).ph = false := rfl
@[simp] theorem State.closeSession_cnt (h : HS) : (s.closeSession h).cnt = 0 := rfl
@[simp] theorem State.closeSession_offset (h : HS) : (s.closeSession h).offset = 0 := rfl
@[simp] theorem State.closeSession_flen (h : HS) : (s.closeSession h).flen = 0 := rfl
@[simp] theorem State.closeSession_cidx (h : HS) : (s.closeSession h).cidx = none := rfl
@[simp] theorem State.closeSession_shreg (h : HS) : (s.closeSession h).shreg = s.shreg := rfl
@[simp] theorem State.closeSession_shadow (h : HS) : (s.closeSession h).shadow = s.shadow := rfl
@[simp] theorem State.closeSession_latched (h : HS) : (s.closeSession h).latched = s.latched := rfl
@[simp] theorem State.closeSession_oe (h : HS) : (s.closeSession h).oe = Lines.released := rfl
@[simp] theorem State.closeSession_prev (h : HS) : (s.closeSession h).prev = s.prev := rfl
@[simp] theorem State.closeSession_cfg (h : HS) : (s.closeSession h).cfg = s.cfg := rfl
@[simp] theorem State.closeSession_inputs (h : HS) : (s.closeSession h).inputs = s.inputs := rfl
@[simp] theorem State.closeSession_tick (h : HS) : (s.closeSession h).tick = s.tick := rfl
@[simp] theorem State.closeSession_hRdata (h : HS) : (s.closeSession h).hRdata = s.hRdata := rfl

@[simp] theorem State.closeTick_ie (l : Lines) (r : List TickInput) (n : Nat) (d : Option Word) :
    (s.closeTick l r n d).ie = s.ie := rfl
@[simp] theorem State.closeTick_pfSel (l : Lines) (r : List TickInput) (n : Nat) (d : Option Word) :
    (s.closeTick l r n d).pfSel = s.pfSel := rfl
@[simp] theorem State.closeTick_done (l : Lines) (r : List TickInput) (n : Nat) (d : Option Word) :
    (s.closeTick l r n d).done = s.done := rfl
@[simp] theorem State.closeTick_rej (l : Lines) (r : List TickInput) (n : Nat) (d : Option Word) :
    (s.closeTick l r n d).rej = s.rej := rfl
@[simp] theorem State.closeTick_result (l : Lines) (r : List TickInput) (n : Nat) (d : Option Word) :
    (s.closeTick l r n d).result = s.result := rfl
@[simp] theorem State.closeTick_tmo (l : Lines) (r : List TickInput) (n : Nat) (d : Option Word) :
    (s.closeTick l r n d).tmo = s.tmo := rfl
@[simp] theorem State.closeTick_timing0 (l : Lines) (r : List TickInput) (n : Nat) (d : Option Word) :
    (s.closeTick l r n d).timing0 = s.timing0 := rfl
@[simp] theorem State.closeTick_timing1 (l : Lines) (r : List TickInput) (n : Nat) (d : Option Word) :
    (s.closeTick l r n d).timing1 = s.timing1 := rfl
@[simp] theorem State.closeTick_anom0 (l : Lines) (r : List TickInput) (n : Nat) (d : Option Word) :
    (s.closeTick l r n d).anom0 = s.anom0 := rfl
@[simp] theorem State.closeTick_anom1 (l : Lines) (r : List TickInput) (n : Nat) (d : Option Word) :
    (s.closeTick l r n d).anom1 = s.anom1 := rfl
@[simp] theorem State.closeTick_mem (l : Lines) (r : List TickInput) (n : Nat) (d : Option Word) :
    (s.closeTick l r n d).mem = s.mem := rfl
@[simp] theorem State.closeTick_busy (l : Lines) (r : List TickInput) (n : Nat) (d : Option Word) :
    (s.closeTick l r n d).busy = s.busy := rfl
@[simp] theorem State.closeTick_op (l : Lines) (r : List TickInput) (n : Nat) (d : Option Word) :
    (s.closeTick l r n d).op = s.op := rfl
@[simp] theorem State.closeTick_role (l : Lines) (r : List TickInput) (n : Nat) (d : Option Word) :
    (s.closeTick l r n d).role = s.role := rfl
@[simp] theorem State.closeTick_hs (l : Lines) (r : List TickInput) (n : Nat) (d : Option Word) :
    (s.closeTick l r n d).hs = s.hs := rfl
@[simp] theorem State.closeTick_bitn (l : Lines) (r : List TickInput) (n : Nat) (d : Option Word) :
    (s.closeTick l r n d).bitn = s.bitn := rfl
@[simp] theorem State.closeTick_ph (l : Lines) (r : List TickInput) (n : Nat) (d : Option Word) :
    (s.closeTick l r n d).ph = s.ph := rfl
@[simp] theorem State.closeTick_cnt (l : Lines) (r : List TickInput) (n : Nat) (d : Option Word) :
    (s.closeTick l r n d).cnt = s.cnt := rfl
@[simp] theorem State.closeTick_offset (l : Lines) (r : List TickInput) (n : Nat) (d : Option Word) :
    (s.closeTick l r n d).offset = s.offset := rfl
@[simp] theorem State.closeTick_flen (l : Lines) (r : List TickInput) (n : Nat) (d : Option Word) :
    (s.closeTick l r n d).flen = s.flen := rfl
@[simp] theorem State.closeTick_cidx (l : Lines) (r : List TickInput) (n : Nat) (d : Option Word) :
    (s.closeTick l r n d).cidx = s.cidx := rfl
@[simp] theorem State.closeTick_shreg (l : Lines) (r : List TickInput) (n : Nat) (d : Option Word) :
    (s.closeTick l r n d).shreg = s.shreg := rfl
@[simp] theorem State.closeTick_shadow (l : Lines) (r : List TickInput) (n : Nat) (d : Option Word) :
    (s.closeTick l r n d).shadow = s.shadow := rfl
@[simp] theorem State.closeTick_latched (l : Lines) (r : List TickInput) (n : Nat) (d : Option Word) :
    (s.closeTick l r n d).latched = s.latched := rfl
@[simp] theorem State.closeTick_oe (l : Lines) (r : List TickInput) (n : Nat) (d : Option Word) :
    (s.closeTick l r n d).oe = s.oe := rfl
@[simp] theorem State.closeTick_prev (l : Lines) (r : List TickInput) (n : Nat) (d : Option Word) :
    (s.closeTick l r n d).prev = l := rfl
@[simp] theorem State.closeTick_cfg (l : Lines) (r : List TickInput) (n : Nat) (d : Option Word) :
    (s.closeTick l r n d).cfg = s.cfg := rfl
@[simp] theorem State.closeTick_inputs (l : Lines) (r : List TickInput) (n : Nat) (d : Option Word) :
    (s.closeTick l r n d).inputs = r := rfl
@[simp] theorem State.closeTick_tick (l : Lines) (r : List TickInput) (n : Nat) (d : Option Word) :
    (s.closeTick l r n d).tick = n := rfl
@[simp] theorem State.closeTick_hRdata (l : Lines) (r : List TickInput) (n : Nat) (d : Option Word) :
    (s.closeTick l r n d).hRdata = d := rfl

end Sys2Proof.Machine
end

