-- ==== Sys2Proof/Laws/Ops.lean ====
section
/-! SUPPORT. What each shared operation can do, said once: the two wait forms, the completion, the issue of a host
operation, the host's register writes, and a received frame. -/

namespace Sys2Proof.Machine

/-! Sequencing and waiting -/

@[simp] theorem andThen_next (s : State) (f : State → Result) : andThen (.next s) f = f s := rfl

@[simp] theorem andThen_fault (e : Fault) (f : State → Result) : andThen (.fault e) f = .fault e := rfl

@[simp] theorem andThen_refused (e : Refusal) (f : State → Result) : andThen (.refused e) f = .refused e := rfl

/-- A sequence has a next state exactly when both parts have. -/
theorem andThen_eq_next {r : Result} {f : State → Result} {t : State} :
    andThen r f = .next t ↔ ∃ u, r = .next u ∧ f u = .next t := by
  cases r <;> simp

/-- All that WAIT can do: the condition holds, or its bound is reached, or it counts. -/
theorem waitFor_cases (cond : Bool) (bound : Nat) (ok fail : State → Result) (s : State) :
    (cond = true ∧ waitFor cond bound ok fail s = ok (s.setCnt 0)) ∨
      (cond = false ∧ bound ≤ s.cnt.toNat + 1 ∧ waitFor cond bound ok fail s = fail s) ∨
      (cond = false ∧ s.cnt.toNat + 1 < bound ∧ waitFor cond bound ok fail s = .next (s.setCnt (s.cnt + 1))) := by
  unfold waitFor
  cases cond
  · by_cases h : bound ≤ s.cnt.toNat + 1
    · exact .inr (.inl ⟨rfl, h, by simp [h]⟩)
    · exact .inr (.inr ⟨rfl, by omega, by simp [h]⟩)
  · exact .inl ⟨rfl, by simp⟩

/-- All that HOLD can do: its bound is reached, or it counts. -/
theorem holdFor_cases (bound : Nat) (done : State → Result) (s : State) :
    (bound ≤ s.cnt.toNat + 1 ∧ holdFor bound done s = done (s.setCnt 0)) ∨
      (s.cnt.toNat + 1 < bound ∧ holdFor bound done s = .next (s.setCnt (s.cnt + 1))) := by
  unfold holdFor
  by_cases h : bound ≤ s.cnt.toNat + 1
  · exact .inl ⟨h, by simp [h]⟩
  · exact .inr ⟨by omega, by simp [h]⟩

/-- A counter below a bound of its width does not wrap when it counts. -/
theorem cnt_succ {c : BitVec 32} {n : Nat} (h : c.toNat + 1 < n) (hn : n ≤ 2 ^ 32) : (c + 1).toNat = c.toNat + 1 := by
  rw [BitVec.toNat_add, show (1 : BitVec 32).toNat = 1 from rfl]
  omega

/-! The fields after each operation -/

section fields

variable (s : State) (err : Completion) (anom : BitVec 45) (c : BitVec 6) (sel : BitVec 4) (k : Cmd) (f : List Byte)
  (w : Nat) (v : Word)

/-! The completion, `complete` -/

@[simp] theorem complete_ie : (complete err anom c s).ie = s.ie := rfl
@[simp] theorem complete_pfSel : (complete err anom c s).pfSel = s.pfSel := rfl
@[simp] theorem complete_done : (complete err anom c s).done = true := rfl
@[simp] theorem complete_rej : (complete err anom c s).rej = s.rej := rfl
@[simp] theorem complete_result : (complete err anom c s).result = s.resultWord err anom c := rfl
@[simp] theorem complete_tmo : (complete err anom c s).tmo = s.tmo := rfl
@[simp] theorem complete_timing0 : (complete err anom c s).timing0 = s.timing0 := rfl
@[simp] theorem complete_timing1 : (complete err anom c s).timing1 = s.timing1 := rfl
@[simp] theorem complete_anom0 : (complete err anom c s).anom0 = anom.extractLsb' 0 32 := rfl
@[simp] theorem complete_anom1 : (complete err anom c s).anom1 = (anom.extractLsb' 32 13).setWidth 32 := rfl
@[simp] theorem complete_mem : (complete err anom c s).mem = s.mem := rfl
@[simp] theorem complete_busy : (complete err anom c s).busy = false := rfl
@[simp] theorem complete_op : (complete err anom c s).op = .none := rfl
@[simp] theorem complete_role : (complete err anom c s).role = .none := rfl
@[simp] theorem complete_hs : (complete err anom c s).hs = (if err = .timeout then .timedOut else .idle) := rfl
@[simp] theorem complete_bitn : (complete err anom c s).bitn = 0 := rfl
@[simp] theorem complete_ph : (complete err anom c s).ph = false := rfl
@[simp] theorem complete_cnt : (complete err anom c s).cnt = 0 := rfl
@[simp] theorem complete_offset : (complete err anom c s).offset = 0 := rfl
@[simp] theorem complete_flen : (complete err anom c s).flen = 0 := rfl
@[simp] theorem complete_cidx : (complete err anom c s).cidx = none := rfl
@[simp] theorem complete_shreg : (complete err anom c s).shreg = s.shreg := rfl
@[simp] theorem complete_shadow : (complete err anom c s).shadow = s.shadow := rfl
@[simp] theorem complete_latched : (complete err anom c s).latched = s.latched := rfl
@[simp] theorem complete_oe : (complete err anom c s).oe = Lines.released := rfl
@[simp] theorem complete_prev : (complete err anom c s).prev = s.prev := rfl
@[simp] theorem complete_cfg : (complete err anom c s).cfg = s.cfg := rfl
@[simp] theorem complete_inputs : (complete err anom c s).inputs = s.inputs := rfl
@[simp] theorem complete_tick : (complete err anom c s).tick = s.tick := rfl
@[simp] theorem complete_hRdata : (complete err anom c s).hRdata = s.hRdata := rfl

/-! The rejection, `reject` -/

@[simp] theorem reject_ie : (reject s).ie = s.ie := rfl
@[simp] theorem reject_pfSel : (reject s).pfSel = s.pfSel := rfl
@[simp] theorem reject_done : (reject s).done = s.done := rfl
@[simp] theorem reject_rej : (reject s).rej = true := rfl
@[simp] theorem reject_result : (reject s).result = s.result := rfl
@[simp] theorem reject_tmo : (reject s).tmo = s.tmo := rfl
@[simp] theorem reject_timing0 : (reject s).timing0 = s.timing0 := rfl
@[simp] theorem reject_timing1 : (reject s).timing1 = s.timing1 := rfl
@[simp] theorem reject_anom0 : (reject s).anom0 = s.anom0 := rfl
@[simp] theorem reject_anom1 : (reject s).anom1 = s.anom1 := rfl
@[simp] theorem reject_mem : (reject s).mem = s.mem := rfl
@[simp] theorem reject_busy : (reject s).busy = s.busy := rfl
@[simp] theorem reject_op : (reject s).op = s.op := rfl
@[simp] theorem reject_role : (reject s).role = s.role := rfl
@[simp] theorem reject_hs : (reject s).hs = s.hs := rfl
@[simp] theorem reject_bitn : (reject s).bitn = s.bitn := rfl
@[simp] theorem reject_ph : (reject s).ph = s.ph := rfl
@[simp] theorem reject_cnt : (reject s).cnt = s.cnt := rfl
@[simp] theorem reject_offset : (reject s).offset = s.offset := rfl
@[simp] theorem reject_flen : (reject s).flen = s.flen := rfl
@[simp] theorem reject_cidx : (reject s).cidx = s.cidx := rfl
@[simp] theorem reject_shreg : (reject s).shreg = s.shreg := rfl
@[simp] theorem reject_shadow : (reject s).shadow = s.shadow := rfl
@[simp] theorem reject_latched : (reject s).latched = s.latched := rfl
@[simp] theorem reject_oe : (reject s).oe = s.oe := rfl
@[simp] theorem reject_prev : (reject s).prev = s.prev := rfl
@[simp] theorem reject_cfg : (reject s).cfg = s.cfg := rfl
@[simp] theorem reject_inputs : (reject s).inputs = s.inputs := rfl
@[simp] theorem reject_tick : (reject s).tick = s.tick := rfl
@[simp] theorem reject_hRdata : (reject s).hRdata = s.hRdata := rfl

/-! The acceptances, `acceptListen`, `acceptReceive` and `acceptSend` -/

@[simp] theorem acceptListen_ie : (acceptListen sel s).ie = s.ie := rfl
@[simp] theorem acceptListen_pfSel : (acceptListen sel s).pfSel = s.pfSel := rfl
@[simp] theorem acceptListen_done : (acceptListen sel s).done = false := rfl
@[simp] theorem acceptListen_rej : (acceptListen sel s).rej = s.rej := rfl
@[simp] theorem acceptListen_result : (acceptListen sel s).result = s.result := rfl
@[simp] theorem acceptListen_tmo : (acceptListen sel s).tmo = s.tmo := rfl
@[simp] theorem acceptListen_timing0 : (acceptListen sel s).timing0 = s.timing0 := rfl
@[simp] theorem acceptListen_timing1 : (acceptListen sel s).timing1 = s.timing1 := rfl
@[simp] theorem acceptListen_anom0 : (acceptListen sel s).anom0 = s.anom0 := rfl
@[simp] theorem acceptListen_anom1 : (acceptListen sel s).anom1 = s.anom1 := rfl
@[simp] theorem acceptListen_mem : (acceptListen sel s).mem = s.mem := rfl
@[simp] theorem acceptListen_busy : (acceptListen sel s).busy = true := rfl
@[simp] theorem acceptListen_op : (acceptListen sel s).op = .listen := rfl
@[simp] theorem acceptListen_role : (acceptListen sel s).role = .observer := rfl
@[simp] theorem acceptListen_hs : (acceptListen sel s).hs = .idle := rfl
@[simp] theorem acceptListen_bitn : (acceptListen sel s).bitn = 0 := rfl
@[simp] theorem acceptListen_ph : (acceptListen sel s).ph = false := rfl
@[simp] theorem acceptListen_cnt : (acceptListen sel s).cnt = 0 := rfl
@[simp] theorem acceptListen_offset : (acceptListen sel s).offset = 0 := rfl
@[simp] theorem acceptListen_flen : (acceptListen sel s).flen = 0 := rfl
@[simp] theorem acceptListen_cidx : (acceptListen sel s).cidx = none := rfl
@[simp] theorem acceptListen_shreg : (acceptListen sel s).shreg = s.shreg := rfl
@[simp] theorem acceptListen_shadow : (acceptListen sel s).shadow = s.shadow := rfl
@[simp] theorem acceptListen_latched : (acceptListen sel s).latched = s.latch sel := rfl
@[simp] theorem acceptListen_oe : (acceptListen sel s).oe = s.oe := rfl
@[simp] theorem acceptListen_prev : (acceptListen sel s).prev = s.prev := rfl
@[simp] theorem acceptListen_cfg : (acceptListen sel s).cfg = s.cfg := rfl
@[simp] theorem acceptListen_inputs : (acceptListen sel s).inputs = s.inputs := rfl
@[simp] theorem acceptListen_tick : (acceptListen sel s).tick = s.tick := rfl
@[simp] theorem acceptListen_hRdata : (acceptListen sel s).hRdata = s.hRdata := rfl

@[simp] theorem acceptReceive_ie : (acceptReceive sel s).ie = s.ie := rfl
@[simp] theorem acceptReceive_pfSel : (acceptReceive sel s).pfSel = s.pfSel := rfl
@[simp] theorem acceptReceive_done : (acceptReceive sel s).done = false := rfl
@[simp] theorem acceptReceive_rej : (acceptReceive sel s).rej = s.rej := rfl
@[simp] theorem acceptReceive_result : (acceptReceive sel s).result = s.result := rfl
@[simp] theorem acceptReceive_tmo : (acceptReceive sel s).tmo = s.tmo := rfl
@[simp] theorem acceptReceive_timing0 : (acceptReceive sel s).timing0 = s.timing0 := rfl
@[simp] theorem acceptReceive_timing1 : (acceptReceive sel s).timing1 = s.timing1 := rfl
@[simp] theorem acceptReceive_anom0 : (acceptReceive sel s).anom0 = s.anom0 := rfl
@[simp] theorem acceptReceive_anom1 : (acceptReceive sel s).anom1 = s.anom1 := rfl
@[simp] theorem acceptReceive_mem : (acceptReceive sel s).mem = s.mem := rfl
@[simp] theorem acceptReceive_busy : (acceptReceive sel s).busy = true := rfl
@[simp] theorem acceptReceive_op : (acceptReceive sel s).op = .receive := rfl
@[simp] theorem acceptReceive_role : (acceptReceive sel s).role = .receiver := rfl
@[simp] theorem acceptReceive_hs : (acceptReceive sel s).hs = .idle := rfl
@[simp] theorem acceptReceive_bitn : (acceptReceive sel s).bitn = 0 := rfl
@[simp] theorem acceptReceive_ph : (acceptReceive sel s).ph = false := rfl
@[simp] theorem acceptReceive_cnt : (acceptReceive sel s).cnt = 0 := rfl
@[simp] theorem acceptReceive_offset : (acceptReceive sel s).offset = 0 := rfl
@[simp] theorem acceptReceive_flen : (acceptReceive sel s).flen = 0 := rfl
@[simp] theorem acceptReceive_cidx : (acceptReceive sel s).cidx = none := rfl
@[simp] theorem acceptReceive_shreg : (acceptReceive sel s).shreg = s.shreg := rfl
@[simp] theorem acceptReceive_shadow : (acceptReceive sel s).shadow = s.shadow := rfl
@[simp] theorem acceptReceive_latched : (acceptReceive sel s).latched = s.latch sel := rfl
@[simp] theorem acceptReceive_oe : (acceptReceive sel s).oe = s.oe := rfl
@[simp] theorem acceptReceive_prev : (acceptReceive sel s).prev = s.prev := rfl
@[simp] theorem acceptReceive_cfg : (acceptReceive sel s).cfg = s.cfg := rfl
@[simp] theorem acceptReceive_inputs : (acceptReceive sel s).inputs = s.inputs := rfl
@[simp] theorem acceptReceive_tick : (acceptReceive sel s).tick = s.tick := rfl
@[simp] theorem acceptReceive_hRdata : (acceptReceive sel s).hRdata = s.hRdata := rfl

@[simp] theorem acceptSend_ie : (acceptSend sel k s).ie = s.ie := rfl
@[simp] theorem acceptSend_pfSel : (acceptSend sel k s).pfSel = s.pfSel := rfl
@[simp] theorem acceptSend_done : (acceptSend sel k s).done = false := rfl
@[simp] theorem acceptSend_rej : (acceptSend sel k s).rej = s.rej := rfl
@[simp] theorem acceptSend_result : (acceptSend sel k s).result = s.result := rfl
@[simp] theorem acceptSend_tmo : (acceptSend sel k s).tmo = s.tmo := rfl
@[simp] theorem acceptSend_timing0 : (acceptSend sel k s).timing0 = s.timing0 := rfl
@[simp] theorem acceptSend_timing1 : (acceptSend sel k s).timing1 = s.timing1 := rfl
@[simp] theorem acceptSend_anom0 : (acceptSend sel k s).anom0 = s.anom0 := rfl
@[simp] theorem acceptSend_anom1 : (acceptSend sel k s).anom1 = s.anom1 := rfl
@[simp] theorem acceptSend_mem : (acceptSend sel k s).mem = s.mem.writeFbuf (encodeFrame s.cfg k (s.serialize k)) := rfl
@[simp] theorem acceptSend_busy : (acceptSend sel k s).busy = true := rfl
@[simp] theorem acceptSend_op : (acceptSend sel k s).op = .send := rfl
@[simp] theorem acceptSend_role : (acceptSend sel k s).role = .sender := rfl
@[simp] theorem acceptSend_hs : (acceptSend sel k s).hs = .idle := rfl
@[simp] theorem acceptSend_bitn : (acceptSend sel k s).bitn = 0 := rfl
@[simp] theorem acceptSend_ph : (acceptSend sel k s).ph = false := rfl
@[simp] theorem acceptSend_cnt : (acceptSend sel k s).cnt = 0 := rfl
@[simp] theorem acceptSend_offset : (acceptSend sel k s).offset = 0 := rfl
@[simp] theorem acceptSend_flen : (acceptSend sel k s).flen = BitVec.ofNat 6 k.flen := rfl
@[simp] theorem acceptSend_cidx : (acceptSend sel k s).cidx = some k := rfl
@[simp] theorem acceptSend_shreg : (acceptSend sel k s).shreg = s.shreg := rfl
@[simp] theorem acceptSend_shadow : (acceptSend sel k s).shadow = s.shadow := rfl
@[simp] theorem acceptSend_latched : (acceptSend sel k s).latched = s.latch sel := rfl
@[simp] theorem acceptSend_oe : (acceptSend sel k s).oe = s.oe := rfl
@[simp] theorem acceptSend_prev : (acceptSend sel k s).prev = s.prev := rfl
@[simp] theorem acceptSend_cfg : (acceptSend sel k s).cfg = s.cfg := rfl
@[simp] theorem acceptSend_inputs : (acceptSend sel k s).inputs = s.inputs := rfl
@[simp] theorem acceptSend_tick : (acceptSend sel k s).tick = s.tick := rfl
@[simp] theorem acceptSend_hRdata : (acceptSend sel k s).hRdata = s.hRdata := rfl

/-! A received frame held by the session, `State.holding` -/

@[simp] theorem State.holding_ie : (s.holding k f).ie = s.ie := rfl
@[simp] theorem State.holding_pfSel : (s.holding k f).pfSel = s.pfSel := rfl
@[simp] theorem State.holding_done : (s.holding k f).done = s.done := rfl
@[simp] theorem State.holding_rej : (s.holding k f).rej = s.rej := rfl
@[simp] theorem State.holding_result : (s.holding k f).result = s.result := rfl
@[simp] theorem State.holding_tmo : (s.holding k f).tmo = s.tmo := rfl
@[simp] theorem State.holding_timing0 : (s.holding k f).timing0 = s.timing0 := rfl
@[simp] theorem State.holding_timing1 : (s.holding k f).timing1 = s.timing1 := rfl
@[simp] theorem State.holding_anom0 : (s.holding k f).anom0 = s.anom0 := rfl
@[simp] theorem State.holding_anom1 : (s.holding k f).anom1 = s.anom1 := rfl
@[simp] theorem State.holding_mem : (s.holding k f).mem = s.mem := rfl
@[simp] theorem State.holding_busy : (s.holding k f).busy = s.busy := rfl
@[simp] theorem State.holding_op : (s.holding k f).op = s.op := rfl
@[simp] theorem State.holding_role : (s.holding k f).role = s.role := rfl
@[simp] theorem State.holding_hs : (s.holding k f).hs = s.hs := rfl
@[simp] theorem State.holding_bitn : (s.holding k f).bitn = s.bitn := rfl
@[simp] theorem State.holding_ph : (s.holding k f).ph = s.ph := rfl
@[simp] theorem State.holding_cnt : (s.holding k f).cnt = s.cnt := rfl
@[simp] theorem State.holding_offset : (s.holding k f).offset = BitVec.ofNat 6 (k.flen - 1) := rfl
@[simp] theorem State.holding_flen : (s.holding k f).flen = BitVec.ofNat 6 k.flen := rfl
@[simp] theorem State.holding_cidx : (s.holding k f).cidx = some k := rfl
@[simp] theorem State.holding_shreg : (s.holding k f).shreg = s.shreg := rfl
@[simp] theorem State.holding_shadow : (s.holding k f).shadow = s.shadow.writeBytes 0 f := rfl
@[simp] theorem State.holding_latched : (s.holding k f).latched = s.latched := rfl
@[simp] theorem State.holding_oe : (s.holding k f).oe = s.oe := rfl
@[simp] theorem State.holding_prev : (s.holding k f).prev = s.prev := rfl
@[simp] theorem State.holding_cfg : (s.holding k f).cfg = s.cfg := rfl
@[simp] theorem State.holding_inputs : (s.holding k f).inputs = s.inputs := rfl
@[simp] theorem State.holding_tick : (s.holding k f).tick = s.tick := rfl
@[simp] theorem State.holding_hRdata : (s.holding k f).hRdata = s.hRdata := rfl

/-! A host write, but for the registers that it writes -/

@[simp] theorem State.writeWord_result : (s.writeWord w v).result = s.result := by
  unfold State.writeWord; split <;> rfl
@[simp] theorem State.writeWord_anom0 : (s.writeWord w v).anom0 = s.anom0 := by
  unfold State.writeWord; split <;> rfl
@[simp] theorem State.writeWord_anom1 : (s.writeWord w v).anom1 = s.anom1 := by
  unfold State.writeWord; split <;> rfl
@[simp] theorem State.writeWord_busy : (s.writeWord w v).busy = s.busy := by
  unfold State.writeWord; split <;> rfl
@[simp] theorem State.writeWord_op : (s.writeWord w v).op = s.op := by
  unfold State.writeWord; split <;> rfl
@[simp] theorem State.writeWord_role : (s.writeWord w v).role = s.role := by
  unfold State.writeWord; split <;> rfl
@[simp] theorem State.writeWord_hs : (s.writeWord w v).hs = s.hs := by
  unfold State.writeWord; split <;> rfl
@[simp] theorem State.writeWord_bitn : (s.writeWord w v).bitn = s.bitn := by
  unfold State.writeWord; split <;> rfl
@[simp] theorem State.writeWord_ph : (s.writeWord w v).ph = s.ph := by
  unfold State.writeWord; split <;> rfl
@[simp] theorem State.writeWord_cnt : (s.writeWord w v).cnt = s.cnt := by
  unfold State.writeWord; split <;> rfl
@[simp] theorem State.writeWord_offset : (s.writeWord w v).offset = s.offset := by
  unfold State.writeWord; split <;> rfl
@[simp] theorem State.writeWord_flen : (s.writeWord w v).flen = s.flen := by
  unfold State.writeWord; split <;> rfl
@[simp] theorem State.writeWord_cidx : (s.writeWord w v).cidx = s.cidx := by
  unfold State.writeWord; split <;> rfl
@[simp] theorem State.writeWord_shreg : (s.writeWord w v).shreg = s.shreg := by
  unfold State.writeWord; split <;> rfl
@[simp] theorem State.writeWord_shadow : (s.writeWord w v).shadow = s.shadow := by
  unfold State.writeWord; split <;> rfl
@[simp] theorem State.writeWord_latched : (s.writeWord w v).latched = s.latched := by
  unfold State.writeWord; split <;> rfl
@[simp] theorem State.writeWord_oe : (s.writeWord w v).oe = s.oe := by
  unfold State.writeWord; split <;> rfl
@[simp] theorem State.writeWord_prev : (s.writeWord w v).prev = s.prev := by
  unfold State.writeWord; split <;> rfl
@[simp] theorem State.writeWord_cfg : (s.writeWord w v).cfg = s.cfg := by
  unfold State.writeWord; split <;> rfl
@[simp] theorem State.writeWord_inputs : (s.writeWord w v).inputs = s.inputs := by
  unfold State.writeWord; split <;> rfl
@[simp] theorem State.writeWord_tick : (s.writeWord w v).tick = s.tick := by
  unfold State.writeWord; split <;> rfl
@[simp] theorem State.writeWord_hRdata : (s.writeWord w v).hRdata = s.hRdata := by
  unfold State.writeWord; split <;> rfl

end fields

/-- A completion does not depend on the counter. -/
theorem complete_setCnt (err : Completion) (anom : BitVec 45) (c : BitVec 6) (s : State) (n : BitVec 32) :
    complete err anom c (s.setCnt n) = complete err anom c s := rfl

/-- A completion does not depend on the line outputs. -/
theorem complete_setOe (err : Completion) (anom : BitVec 45) (c : BitVec 6) (s : State) (l : Lines) :
    complete err anom c (s.setOe l) = complete err anom c s := rfl

/-! The issue of a host operation -/

/-- All that an issue can do (43_host_ops.md R280 to R283). -/
theorem issue_cases (op : Nat) (sel : BitVec 4) (s : State) :
    (op = 0 ∧ issue op sel s = s) ∨
      (op ≠ 0 ∧ issue op sel s = reject s) ∨
      (s.busy = false ∧ op = 1 ∧ issue op sel s = acceptListen sel s) ∨
      (∃ k, s.busy = false ∧ op = 2 ∧ sel = k.index ∧ issue op sel s = acceptSend sel k s) ∨
      (s.busy = false ∧ op = 3 ∧ sel.toNat < 12 ∧ issue op sel s = acceptReceive sel s) := by
  unfold issue
  by_cases h0 : op = 0
  · exact .inl ⟨h0, by simp [h0]⟩
  rw [if_neg h0]
  by_cases hr : s.busy = true ∨ 4 ≤ op
  · exact .inr (.inl ⟨h0, by rw [if_pos hr]⟩)
  rw [if_neg hr]
  have hb : s.busy = false := by cases hs : s.busy <;> simp_all
  by_cases hsel : sel.toNat < 12
  · obtain ⟨k, hk, rfl⟩ := Cmd.ofIndex_of_lt hsel
    have : op = 1 ∨ op = 2 ∨ op = 3 := by omega
    rcases this with rfl | rfl | rfl
    · exact .inr (.inr (.inl ⟨hb, rfl, rfl⟩))
    · exact .inr (.inr (.inr (.inl ⟨k, hb, rfl, rfl, by simp only [hk]⟩)))
    · exact .inr (.inr (.inr (.inr ⟨hb, rfl, hsel, by simp only [hk]⟩)))
  · have hk := Cmd.ofIndex_of_ge (sel := sel) (by omega)
    have : op = 1 ∨ op = 2 ∨ op = 3 := by omega
    rcases this with rfl | rfl | rfl
    · exact .inr (.inr (.inl ⟨hb, rfl, rfl⟩))
    · exact .inr (.inl ⟨h0, by simp only [hk]⟩)
    · exact .inr (.inl ⟨h0, by simp only [hk]⟩)

/-- While a session is active an issue only sets REJ, and NOP nothing at all. -/
theorem issue_of_busy {s : State} (h : s.busy = true) (op : Nat) (sel : BitVec 4) :
    issue op sel s = s.setFlags s.done (if op = 0 then s.rej else true) := by
  unfold issue
  by_cases h0 : op = 0
  · rw [if_pos h0, if_pos h0]; rfl
  · rw [if_neg h0, if_neg h0, if_pos (.inl h)]; rfl

/-- Every CMD word runs as the issue of its OP and CMDSEL. -/
theorem exec_decodeCmd (w : Word) (s : State) :
    exec (decodeCmd w) s = .next (issue (cmdOp w).toNat (cmdSel w) s) := by
  have h8 : (cmdOp w).toNat < 8 := (cmdOp w).isLt
  have hr (h : 12 ≤ (cmdSel w).toNat) : reservedSel (cmdSelLo w) = cmdSel w := by
    rw [cmdSelLo_eq, reservedSel_low h]
  unfold decodeCmd
  generalize (cmdOp w).toNat = n at h8
  match n, h8 with
  | 0, _ => rfl
  | 1, _ => rfl
  | 2, _ =>
    by_cases h : 12 ≤ (cmdSel w).toNat
    · simp only [h, if_true, exec, execSendReservedCmdsel, hr h]
    · simp only [h, if_false, exec, execSend]
  | 3, _ =>
    by_cases h : 12 ≤ (cmdSel w).toNat
    · simp only [h, if_true, exec, execReceiveReservedCmdsel, hr h]
    · simp only [h, if_false, exec, execReceive]
  | 4, _ => rfl
  | 5, _ => rfl
  | 6, _ => rfl
  | 7, _ => rfl

/-! The host's register writes -/

theorem storable_iff (a : Nat) : storable a = true ↔ (0x080 ≤ a ∧ a < 0x0AD) ∨ (0x100 ≤ a ∧ a < 0x140) := by
  simp [storable]

theorem Memory.read_storeByte (m : Memory) (a : Nat) (v : Byte) (b : Nat) :
    (m.storeByte a v).read b = if b = a ∧ storable a = true then v else m.read b := by
  unfold Memory.storeByte
  by_cases h : storable a = true <;> simp [h]

/-- A byte after a host write of a word of the byte arrays. -/
theorem Memory.read_storeWord (m : Memory) (w : Nat) (v : Word) (a : Nat) :
    (m.storeWord w v).read a =
      if a / 4 = w ∧ storable a = true then v.extractLsb' (8 * (a % 4)) 8 else m.read a := by
  unfold Memory.storeWord
  simp only [Memory.read_storeByte]
  by_cases hw : a / 4 = w
  · obtain ⟨j, hj, ha⟩ : ∃ j, j < 4 ∧ a = 4 * w + j := ⟨a % 4, by omega, by omega⟩
    have hm : a % 4 = j := by omega
    rw [hm]
    subst ha
    by_cases h : storable (4 * w + j) = true <;> interval_cases j <;> simp_all
  · have h3 : a ≠ 4 * w + 3 := by omega
    have h2 : a ≠ 4 * w + 2 := by omega
    have h1 : a ≠ 4 * w + 1 := by omega
    have h0 : a ≠ 4 * w := by omega
    simp [hw, h0, h1, h2, h3]

theorem Memory.wf_storeByte {m : Memory} (h : m.wf = true) (a : Nat) (v : Byte) : (m.storeByte a v).wf = true := by
  unfold Memory.storeByte
  split
  · exact Memory.wf_write h a v
  · exact h

/-- A host write keeps the canonical form. -/
theorem Memory.wf_storeWord {m : Memory} (h : m.wf = true) (w : Nat) (v : Word) : (m.storeWord w v).wf = true :=
  Memory.wf_storeByte (Memory.wf_storeByte (Memory.wf_storeByte (Memory.wf_storeByte h _ _) _ _) _ _) _ _

/-- Every cell after a host write is an old one, or one that the host may store to. -/
theorem Memory.mem_storeWord {m : Memory} {w : Nat} {v : Word} {c : Host.Cell} (h : c ∈ m.storeWord w v) :
    storable c.1 = true ∨ c ∈ m := by
  have key {m : Memory} {a : Nat} {v : Byte} (h : c ∈ m.storeByte a v) : storable c.1 = true ∨ c ∈ m := by
    unfold Memory.storeByte at h
    split at h
    · next hs =>
      rcases Memory.mem_write h with h | h
      · exact .inl (h ▸ hs)
      · exact .inr h
    · exact .inr h
  unfold Memory.storeWord at h
  rcases key h with h | h
  · exact .inl h
  rcases key h with h | h
  · exact .inl h
  rcases key h with h | h
  · exact .inl h
  exact key h

/-- What a host write does to the byte arrays. -/
theorem State.writeWord_mem (s : State) (w : Nat) (v : Word) :
    (s.writeWord w v).mem = if 7 ≤ w then s.mem.storeWord w v else s.mem := by
  match w with
  | 0 => rfl
  | 1 => rfl
  | 2 => rfl
  | 3 => rfl
  | 4 => rfl
  | 5 => rfl
  | 6 => rfl
  | n + 7 => rw [if_pos (by omega)]; rfl

/-- A host write does not touch FBUF. -/
theorem State.writeWord_fbuf (s : State) (w : Nat) (v : Word) (i : Nat) : (s.writeWord w v).fbuf i = s.fbuf i := by
  unfold State.fbuf
  split
  · next h =>
    rw [State.writeWord_mem]
    split
    · rw [Memory.read_storeWord, if_neg]
      rw [storable_iff]
      simp only [fbufBase]
      omega
    · rfl
  · rfl

/-- The memory at reset is canonical. -/
theorem State.reset_mem_wf : State.reset.mem.wf = true := rfl

/-! A received frame -/

/-- Every wire frame runs by the one shared operation. -/
theorem exec_frameInstr (k : Cmd) (p : List Byte) (ck : Byte) (s : State) :
    exec (frameInstr k p ck) s = receiveFrame k p ck s := by
  cases k <;> rfl

/-- A receiving session is no SEND. -/
theorem State.sent_of_receiving {s : State} (h : s.receiving = true) : s.sent = false := by
  simp only [State.receiving, Bool.and_eq_true, Bool.or_eq_true, decide_eq_true_eq] at h
  rcases h.2 with h | h <;> simp [State.sent, h]

/-- All that a received frame can do to a receiving session (41_frame_codec.md R212). -/
theorem frameDone_cases (k : Cmd) (p : List Byte) (ck : Byte) (s : State) :
    (s.cfg.checksum (s.cfg.code k :: p) ≠ ck ∧
        frameDone k p ck s =
          complete .checksumMismatch 0 1 (s.setMem (s.mem.writeFbuf (frameBytes s.cfg k p ck)))) ∨
      (s.cfg.checksum (s.cfg.code k :: p) = ck ∧ s.op = .receive ∧ s.latched.sel ≠ k.index ∧
        frameDone k p ck s =
          complete .unexpectedCommand 0 1 (s.setMem (s.mem.writeFbuf (frameBytes s.cfg k p ck)))) ∨
      (s.cfg.checksum (s.cfg.code k :: p) = ck ∧ ¬ (s.op = .receive ∧ s.latched.sel ≠ k.index) ∧
        frameDone k p ck s =
          complete .ok (anomaly s.cfg k p) 1
            (s.setMem ((s.mem.writeFbuf (frameBytes s.cfg k p ck)).writeFields (extract s.cfg k p)))) := by
  unfold frameDone
  by_cases h1 : s.cfg.checksum (s.cfg.code k :: p) = ck
  · by_cases h2 : s.op = .receive ∧ s.latched.sel ≠ k.index
    · exact .inr (.inl ⟨h1, h2.1, h2.2, by simp only [h1, h2, ne_eq, not_true, not_false_iff, and_self, if_true,
        if_false]⟩)
    · exact .inr (.inr ⟨h1, h2, by simp only [h1, h2, ne_eq, not_true, if_false]; rfl⟩)
  · exact .inl ⟨h1, by simp only [h1, ne_eq, not_false_iff, if_true]⟩

theorem frameDone_eq (k : Cmd) (p : List Byte) (ck : Byte) (s : State) :
    frameDone k p ck s =
      if s.cfg.checksum (s.cfg.code k :: p) ≠ ck then
        complete .checksumMismatch 0 1 (s.setMem (s.mem.writeFbuf (frameBytes s.cfg k p ck)))
      else if s.op = .receive ∧ s.latched.sel ≠ k.index then
        complete .unexpectedCommand 0 1 (s.setMem (s.mem.writeFbuf (frameBytes s.cfg k p ck)))
      else
        complete .ok (anomaly s.cfg k p) 1
          (s.setMem ((s.mem.writeFbuf (frameBytes s.cfg k p ck)).writeFields (extract s.cfg k p))) := rfl

theorem State.setCnt_setMem (s : State) (n : BitVec 32) (m : Memory) :
    (s.setCnt n).setMem m = (s.setMem m).setCnt n := rfl

theorem State.setOe_setMem (s : State) (l : Lines) (m : Memory) : (s.setOe l).setMem m = (s.setMem m).setOe l := rfl

/-- A received frame's effect does not depend on the counter. -/
theorem frameDone_setCnt (k : Cmd) (p : List Byte) (ck : Byte) (s : State) (n : BitVec 32) :
    frameDone k p ck (s.setCnt n) = frameDone k p ck s := by
  simp only [frameDone_eq, State.setCnt_setMem, complete_setCnt, State.setCnt_cfg, State.setCnt_op,
    State.setCnt_latched, State.setCnt_mem]
  rfl

/-- A received frame's effect does not depend on the line outputs. -/
theorem frameDone_setOe (k : Cmd) (p : List Byte) (ck : Byte) (s : State) (l : Lines) :
    frameDone k p ck (s.setOe l) = frameDone k p ck s := by
  simp only [frameDone_eq, State.setOe_setMem, complete_setOe, State.setOe_cfg, State.setOe_op,
    State.setOe_latched, State.setOe_mem]
  rfl

/-- The word address of a byte address: the two low bits do not take part (20_memory.md R86). -/
theorem wordIndex_eq (addr : BitVec 12) : wordIndex addr = addr.toNat / 4 := by
  simp [wordIndex, BitVec.extractLsb'_toNat, Nat.shiftRight_eq_div_pow]
  omega

end Sys2Proof.Machine
end

