-- ==== Sys2Proof/Laws/Handshake.lean ====
section
/-! SUPPORT. One tick of a session, said once: which rule of 40_handshake.md runs in each place, and all the next
states that a tick can have. -/

namespace Sys2Proof.Machine

/-! The rule that runs, by role, handshake state and phase -/

section places

variable (l : Lines) {s : State}

theorem handshake_senderIdle (hr : s.role = .sender) (hh : s.hs = .idle) : handshake l s = senderIdle l s := by
  simp [handshake, hr, senderStep, hh]

theorem handshake_senderStart (hr : s.role = .sender) (hh : s.hs = .start) : handshake l s = senderStart s := by
  simp [handshake, hr, senderStep, hh]

theorem handshake_senderBitHigh (hr : s.role = .sender) (hh : s.hs = .bit) (hp : s.ph = false) :
    handshake l s = senderBitHigh s := by
  simp [handshake, hr, senderStep, hh, hp]

theorem handshake_senderBitLow (hr : s.role = .sender) (hh : s.hs = .bit) (hp : s.ph = true) :
    handshake l s = senderBitLow s := by
  simp [handshake, hr, senderStep, hh, hp]

theorem handshake_senderAckLow (hr : s.role = .sender) (hh : s.hs = .ack) (hp : s.ph = false) :
    handshake l s = senderAckLow l s := by
  simp [handshake, hr, senderStep, hh, hp]

theorem handshake_senderAckHigh (hr : s.role = .sender) (hh : s.hs = .ack) (hp : s.ph = true) :
    handshake l s = senderAckHigh l s := by
  simp [handshake, hr, senderStep, hh, hp]

theorem handshake_awaitStart (hr : s.role = .receiver ∨ s.role = .observer) (hh : s.hs = .idle) :
    handshake l s = awaitStart l s := by
  rcases hr with hr | hr <;> simp [handshake, hr, receiverStep, observerStep, hh]

theorem handshake_awaitCell (hr : s.role = .receiver ∨ s.role = .observer) (hh : s.hs = .start ∨ s.hs = .bit) :
    handshake l s = awaitCell l s := by
  rcases hr with hr | hr <;> rcases hh with hh | hh <;> simp [handshake, hr, receiverStep, observerStep, hh]

theorem handshake_receiverAckStart (hr : s.role = .receiver) (hh : s.hs = .ack) (hp : s.ph = false) :
    handshake l s = receiverAckStart l s := by
  simp [handshake, hr, receiverStep, hh, hp]

theorem handshake_receiverAckHold (hr : s.role = .receiver) (hh : s.hs = .ack) (hp : s.ph = true) :
    handshake l s = receiverAckHold s := by
  simp [handshake, hr, receiverStep, hh, hp]

theorem handshake_observerAckLow (hr : s.role = .observer) (hh : s.hs = .ack) (hp : s.ph = false) :
    handshake l s = observerAckLow l s := by
  simp [handshake, hr, observerStep, hh, hp]

theorem handshake_observerAckHigh (hr : s.role = .observer) (hh : s.hs = .ack) (hp : s.ph = true) :
    handshake l s = observerAckHigh l s := by
  simp [handshake, hr, observerStep, hh, hp]

theorem handshake_nowhere (h : s.role = .none ∨ s.hs = .timedOut) : handshake l s = .next s := by
  unfold handshake senderStep receiverStep observerStep
  rcases h with h | h
  · simp [h]
  · rcases s.role with _ | _ | _ | _ <;> simp [h]

end places

/-! The fields after a byte is loaded -/

section fields

variable (b : Byte) (s : State)

@[simp] theorem startByte_ie : (startByte b s).ie = s.ie := rfl
@[simp] theorem startByte_pfSel : (startByte b s).pfSel = s.pfSel := rfl
@[simp] theorem startByte_done : (startByte b s).done = s.done := rfl
@[simp] theorem startByte_rej : (startByte b s).rej = s.rej := rfl
@[simp] theorem startByte_result : (startByte b s).result = s.result := rfl
@[simp] theorem startByte_tmo : (startByte b s).tmo = s.tmo := rfl
@[simp] theorem startByte_timing0 : (startByte b s).timing0 = s.timing0 := rfl
@[simp] theorem startByte_timing1 : (startByte b s).timing1 = s.timing1 := rfl
@[simp] theorem startByte_anom0 : (startByte b s).anom0 = s.anom0 := rfl
@[simp] theorem startByte_anom1 : (startByte b s).anom1 = s.anom1 := rfl
@[simp] theorem startByte_mem : (startByte b s).mem = s.mem := rfl
@[simp] theorem startByte_busy : (startByte b s).busy = s.busy := rfl
@[simp] theorem startByte_op : (startByte b s).op = s.op := rfl
@[simp] theorem startByte_role : (startByte b s).role = s.role := rfl
@[simp] theorem startByte_hs : (startByte b s).hs = .bit := rfl
@[simp] theorem startByte_bitn : (startByte b s).bitn = 0 := rfl
@[simp] theorem startByte_ph : (startByte b s).ph = false := rfl
@[simp] theorem startByte_cnt : (startByte b s).cnt = s.cnt := rfl
@[simp] theorem startByte_offset : (startByte b s).offset = s.offset := rfl
@[simp] theorem startByte_flen : (startByte b s).flen = s.flen := rfl
@[simp] theorem startByte_cidx : (startByte b s).cidx = s.cidx := rfl
@[simp] theorem startByte_shreg : (startByte b s).shreg = b := rfl
@[simp] theorem startByte_shadow : (startByte b s).shadow = s.shadow := rfl
@[simp] theorem startByte_latched : (startByte b s).latched = s.latched := rfl
@[simp] theorem startByte_oe : (startByte b s).oe = { s.oe with data := !wireBit b 0 } := rfl
@[simp] theorem startByte_prev : (startByte b s).prev = s.prev := rfl
@[simp] theorem startByte_cfg : (startByte b s).cfg = s.cfg := rfl
@[simp] theorem startByte_inputs : (startByte b s).inputs = s.inputs := rfl
@[simp] theorem startByte_tick : (startByte b s).tick = s.tick := rfl
@[simp] theorem startByte_hRdata : (startByte b s).hRdata = s.hRdata := rfl

end fields

/-- The state in which the byte done of a receiving session runs (40_handshake.md R163, R164): the counter is
cleared, and a receiver has released Ack. -/
def State.acked (s : State) : State :=
  if s.role = .receiver then (s.setCnt 0).setOe { s.oe with ack := false } else s.setCnt 0

/-- Where the byte done runs, a received frame has the same effect. -/
theorem frameDone_acked (k : Cmd) (p : List Byte) (ck : Byte) (f : List Byte) (s : State) :
    frameDone k p ck (s.acked.holding k f) = frameDone k p ck (s.holding k f) := by
  have h1 (l : Lines) : ((s.setCnt 0).setOe l).holding k f = ((s.holding k f).setCnt 0).setOe l := rfl
  have h2 : (s.setCnt 0).holding k f = (s.holding k f).setCnt 0 := rfl
  unfold State.acked
  split
  · rw [h1, frameDone_setOe, frameDone_setCnt]
  · rw [h2, frameDone_setCnt]

/-- All the next states of one tick of a session. -/
inductive Moves (l : Lines) (s : State) : State → Prop
  | nowhere (h : s.role = .none ∨ s.hs = .timedOut) : Moves l s s
  | count (h : s.cnt.toNat + 1 < s.bound) : Moves l s (s.setCnt (s.cnt + 1))
  | expire (err : Completion) (he : err = .timeout ∨ err = .noAck) (h : s.bound ≤ s.cnt.toNat + 1) :
      Moves l s (complete err 0 0 s)
  | pullSync (hr : s.role = .sender) (hh : s.hs = .idle) (hc : (l.sync && l.ack && l.data && l.clock) = true) :
      Moves l s (((s.setCnt 0).setOe { s.oe with sync := true }).setPlace .start s.bitn s.ph)
  | firstByte (hr : s.role = .sender) (hh : s.hs = .start) (hn : s.bound ≤ s.cnt.toNat + 1) :
      Moves l s (startByte (s.fbuf s.offset.toNat) (s.setCnt 0))
  | clockLow (hr : s.role = .sender) (hh : s.hs = .bit) (hp : s.ph = false) (hn : s.bound ≤ s.cnt.toNat + 1) :
      Moves l s (((s.setCnt 0).setOe { s.oe with clock := true }).setPlace .bit s.bitn true)
  | nextCell (hr : s.role = .sender) (hh : s.hs = .bit) (hp : s.ph = true) (hn : s.bound ≤ s.cnt.toNat + 1)
      (hb : s.bitn.toNat < 7) :
      Moves l s (((s.setCnt 0).setOe
        { s.oe with clock := false, data := !wireBit s.shreg (s.bitn.toNat + 1) }).setPlace .bit (s.bitn + 1) false)
  | lastCell (hr : s.role = .sender) (hh : s.hs = .bit) (hp : s.ph = true) (hn : s.bound ≤ s.cnt.toNat + 1)
      (hb : s.bitn = 7) :
      Moves l s (((s.setCnt 0).setOe { s.oe with clock := false, data := false }).setPlace .ack s.bitn false)
  | ackLow (hr : s.role = .sender ∨ s.role = .observer) (hh : s.hs = .ack) (hp : s.ph = false)
      (ha : l.ack = false) : Moves l s ((s.setCnt 0).setPlace .ack s.bitn true)
  | frameSent (hr : s.role = .sender) (hh : s.hs = .ack) (hp : s.ph = true) (ha : l.ack = true)
      (hl : s.offset + 1 = s.flen) : Moves l s (complete .ok 0 1 s)
  | nextSent (hr : s.role = .sender) (hh : s.hs = .ack) (hp : s.ph = true) (ha : l.ack = true)
      (hl : s.offset + 1 ≠ s.flen) :
      Moves l s (startByte (s.fbuf (s.offset.toNat + 1)) ((s.setCnt 0).setOffset (s.offset + 1)))
  | started (hr : s.role = .receiver ∨ s.role = .observer) (hh : s.hs = .idle) (hf : s.syncFell l = true) :
      Moves l s ((s.setCnt 0).setPlace .start 0 s.ph)
  | sampled (hr : s.role = .receiver ∨ s.role = .observer) (hh : s.hs = .start ∨ s.hs = .bit)
      (hf : s.clockFell l = true) : Moves l s (sample l (s.setCnt 0))
  | pullAck (hr : s.role = .receiver) (hh : s.hs = .ack) (hp : s.ph = false) (hc : l.clock = true) :
      Moves l s (((s.setCnt 0).setOe { s.oe with ack := true }).setPlace .ack s.bitn true)
  | byteDone (hr : (s.role = .receiver ∧ s.bound ≤ s.cnt.toNat + 1) ∨ (s.role = .observer ∧ l.ack = true))
      (hh : s.hs = .ack) (hp : s.ph = true) (t : State) (h : rxByteDone s.acked = .next t) : Moves l s t

theorem HS.cases_of_ne {h : HS} (h1 : h ≠ .timedOut) : h = .idle ∨ h = .start ∨ h = .bit ∨ h = .ack := by
  cases h <;> simp_all

/-- One tick of a session has no other next states than these. -/
theorem handshake_moves {l : Lines} {s t : State} (h : handshake l s = .next t) : Moves l s t := by
  by_cases h0 : s.role = .none ∨ s.hs = .timedOut
  · rw [handshake_nowhere l h0] at h
    cases h
    exact .nowhere h0
  push Not at h0
  have hph : s.ph = false ∨ s.ph = true := by cases s.ph <;> simp
  have expired (err : Completion) (he : err = .timeout ∨ err = .noAck) {n : Nat} (hb : s.bound = n)
      (hn : n ≤ s.cnt.toNat + 1) {u : State} (hu : finish err 0 s = .next u) : Moves l s u := by
    cases hu
    exact .expire err he (hb ▸ hn)
  have counted {n : Nat} (hb : s.bound = n) (hn : s.cnt.toNat + 1 < n) {u : State}
      (hu : Host.Outcome.next (ρ := Refusal) (φ := Fault) (s.setCnt (s.cnt + 1)) = .next u) : Moves l s u := by
    cases hu
    exact .count (hb ▸ hn)
  have hear (hr : s.role = .receiver ∨ s.role = .observer)
      (hh : s.hs = .idle ∨ s.hs = .start ∨ s.hs = .bit) : Moves l s t := by
    rcases hh with hh | hh
    · have hb : s.bound = s.tmoBound := by rcases hr with hr | hr <;> simp [State.bound, hr, hh]
      rw [handshake_awaitStart l hr hh, awaitStart] at h
      rcases waitFor_cases (s.syncFell l) s.tmoBound (fun t => .next (t.setPlace .start 0 t.ph)) (finish .timeout 0) s
        with ⟨hc, e⟩ | ⟨-, hn, e⟩ | ⟨-, hn, e⟩ <;> rw [e] at h
      · cases h; exact .started hr hh hc
      · exact expired _ (.inl rfl) hb hn h
      · exact counted hb hn h
    · have hb : s.bound = s.tbitBound := by
        rcases hr with hr | hr <;> rcases hh with hh | hh <;> simp [State.bound, hr, hh]
      rw [handshake_awaitCell l hr hh, awaitCell] at h
      rcases waitFor_cases (s.clockFell l) s.tbitBound (fun t => .next (sample l t)) (finish .timeout 0) s
        with ⟨hc, e⟩ | ⟨-, hn, e⟩ | ⟨-, hn, e⟩ <;> rw [e] at h
      · cases h; exact .sampled hr hh hc
      · exact expired _ (.inl rfl) hb hn h
      · exact counted hb hn h
  cases hr : s.role with
  | none => exact absurd hr h0.1
  | sender =>
    rcases HS.cases_of_ne h0.2 with hh | hh | hh | hh
    · have hb : s.bound = s.tmoBound := by simp [State.bound, hr, hh]
      rw [handshake_senderIdle l hr hh, senderIdle] at h
      rcases waitFor_cases (l.sync && l.ack && l.data && l.clock) s.tmoBound
        (fun t => .next ((t.setOe { t.oe with sync := true }).setPlace .start t.bitn t.ph)) (finish .timeout 0) s
        with ⟨hc, e⟩ | ⟨-, hn, e⟩ | ⟨-, hn, e⟩ <;> rw [e] at h
      · cases h; exact .pullSync hr hh hc
      · exact expired _ (.inl rfl) hb hn h
      · exact counted hb hn h
    · have hb : s.bound = s.thalfBound := by simp [State.bound, hr, hh]
      rw [handshake_senderStart l hr hh, senderStart] at h
      rcases holdFor_cases s.thalfBound (fun t => .next (startByte (t.fbuf t.offset.toNat) t)) s
        with ⟨hn, e⟩ | ⟨hn, e⟩ <;> rw [e] at h
      · cases h; exact .firstByte hr hh (hb ▸ hn)
      · exact counted hb hn h
    · have hb : s.bound = s.thalfBound := by simp [State.bound, hr, hh]
      rcases hph with hp | hp
      · rw [handshake_senderBitHigh l hr hh hp, senderBitHigh] at h
        rcases holdFor_cases s.thalfBound
          (fun t => .next ((t.setOe { t.oe with clock := true }).setPlace t.hs t.bitn true)) s
          with ⟨hn, e⟩ | ⟨hn, e⟩ <;> rw [e] at h
        · cases h
          rw [State.setCnt_hs, hh]
          exact .clockLow hr hh hp (hb ▸ hn)
        · exact counted hb hn h
      · rw [handshake_senderBitLow l hr hh hp, senderBitLow] at h
        rcases holdFor_cases s.thalfBound (fun t => .next (senderCellDone t)) s with ⟨hn, e⟩ | ⟨hn, e⟩ <;> rw [e] at h
        · cases h
          unfold senderCellDone
          split
          · next hb7 => exact .nextCell hr hh hp (hb ▸ hn) hb7
          · next hb7 =>
            have h7 : s.bitn = 7 := by
              apply BitVec.eq_of_toNat_eq
              have := s.bitn.isLt
              rw [State.setCnt_bitn] at hb7
              show s.bitn.toNat = 7
              omega
            exact .lastCell hr hh hp (hb ▸ hn) h7
        · exact counted hb hn h
    · have hb : s.bound = s.tackBound := by simp [State.bound, hr, hh]
      rcases hph with hp | hp
      · rw [handshake_senderAckLow l hr hh hp, senderAckLow] at h
        rcases waitFor_cases (!l.ack) s.tackBound (fun t => .next (t.setPlace t.hs t.bitn true)) (finish .noAck 0) s
          with ⟨hc, e⟩ | ⟨-, hn, e⟩ | ⟨-, hn, e⟩ <;> rw [e] at h
        · cases h
          rw [State.setCnt_hs, hh]
          exact .ackLow (.inl hr) hh hp (by simpa using hc)
        · exact expired _ (.inr rfl) hb hn h
        · exact counted hb hn h
      · rw [handshake_senderAckHigh l hr hh hp, senderAckHigh] at h
        rcases waitFor_cases l.ack s.tackBound senderByteDone (finish .timeout 0) s
          with ⟨hc, e⟩ | ⟨-, hn, e⟩ | ⟨-, hn, e⟩ <;> rw [e] at h
        · unfold senderByteDone at h
          split at h
          · next hl =>
            rw [finish, complete_setCnt] at h
            cases h
            exact .frameSent hr hh hp hc hl
          · next hl =>
            cases h
            exact .nextSent hr hh hp hc hl
        · exact expired _ (.inl rfl) hb hn h
        · exact counted hb hn h
  | receiver =>
    rcases HS.cases_of_ne h0.2 with hh | hh | hh | hh
    · exact hear (.inl hr) (.inl hh)
    · exact hear (.inl hr) (.inr (.inl hh))
    · exact hear (.inl hr) (.inr (.inr hh))
    · rcases hph with hp | hp
      · have hb : s.bound = s.tbitBound := by simp [State.bound, hr, hh, hp]
        rw [handshake_receiverAckStart l hr hh hp, receiverAckStart] at h
        rcases waitFor_cases l.clock s.tbitBound
          (fun t => .next ((t.setOe { t.oe with ack := true }).setPlace t.hs t.bitn true)) (finish .timeout 0) s
          with ⟨hc, e⟩ | ⟨-, hn, e⟩ | ⟨-, hn, e⟩ <;> rw [e] at h
        · cases h
          rw [State.setCnt_hs, hh]
          exact .pullAck hr hh hp hc
        · exact expired _ (.inl rfl) hb hn h
        · exact counted hb hn h
      · have hb : s.bound = s.tackholdBound := by simp [State.bound, hr, hh, hp]
        rw [handshake_receiverAckHold l hr hh hp, receiverAckHold] at h
        rcases holdFor_cases s.tackholdBound (fun t => rxByteDone (t.setOe { t.oe with ack := false })) s
          with ⟨hn, e⟩ | ⟨hn, e⟩ <;> rw [e] at h
        · exact .byteDone (.inl ⟨hr, hb ▸ hn⟩) hh hp t (by rw [State.acked, if_pos hr]; exact h)
        · exact counted hb hn h
  | observer =>
    rcases HS.cases_of_ne h0.2 with hh | hh | hh | hh
    · exact hear (.inr hr) (.inl hh)
    · exact hear (.inr hr) (.inr (.inl hh))
    · exact hear (.inr hr) (.inr (.inr hh))
    · have hb : s.bound = s.tackBound := by simp [State.bound, hr, hh]
      rcases hph with hp | hp
      · rw [handshake_observerAckLow l hr hh hp, observerAckLow] at h
        rcases waitFor_cases (!l.ack) s.tackBound (fun t => .next (t.setPlace t.hs t.bitn true)) (finish .noAck 0) s
          with ⟨hc, e⟩ | ⟨-, hn, e⟩ | ⟨-, hn, e⟩ <;> rw [e] at h
        · cases h
          rw [State.setCnt_hs, hh]
          exact .ackLow (.inr hr) hh hp (by simpa using hc)
        · exact expired _ (.inr rfl) hb hn h
        · exact counted hb hn h
      · rw [handshake_observerAckHigh l hr hh hp, observerAckHigh] at h
        rcases waitFor_cases l.ack s.tackBound rxByteDone (finish .timeout 0) s
          with ⟨hc, e⟩ | ⟨-, hn, e⟩ | ⟨-, hn, e⟩ <;> rw [e] at h
        · exact .byteDone (.inr ⟨hr, hc⟩) hh hp t (by rw [State.acked, if_neg (by simp [hr])]; exact h)
        · exact expired _ (.inl rfl) hb hn h
        · exact counted hb hn h

/-- All that a byte done can do (40_handshake.md R166, 41_frame_codec.md R207): the command byte is unknown or gives
the frame's length, a byte inside the frame goes on, the last one runs the frame's instruction. -/
theorem rxByteDone_cases (s : State) :
    (s.offset = 0 ∧ lookup s.cfg s.op s.latched.sel s.latched.pf (s.shadow.read 0) = none ∧
        rxByteDone s = .next (complete .unknownCommand 0 1 s)) ∨
      (∃ k, s.offset = 0 ∧ lookup s.cfg s.op s.latched.sel s.latched.pf (s.shadow.read 0) = some k ∧
        rxByteDone s = .next (((s.setFrame (some k) (BitVec.ofNat 6 k.flen)).setOffset 1).setPlace .bit 0 false)) ∨
      (s.offset ≠ 0 ∧ s.offset + 1 = s.flen ∧ rxByteDone s = runReceived s) ∨
      (s.offset ≠ 0 ∧ s.offset + 1 ≠ s.flen ∧
        rxByteDone s = .next ((s.setOffset (s.offset + 1)).setPlace .bit 0 false)) := by
  unfold rxByteDone
  by_cases h0 : s.offset = 0
  · have h1 : s.offset + 1 = 1 := by rw [h0]; rfl
    rw [if_pos h1, commandByteDone]
    cases hk : lookup s.cfg s.op s.latched.sel s.latched.pf (s.shadow.read 0) with
    | none => exact .inl ⟨h0, rfl, rfl⟩
    | some k => exact .inr (.inl ⟨k, h0, rfl, by simp only [nextByte, State.setFrame_offset, h1]⟩)
  · have h1 : s.offset + 1 ≠ 1 := fun h => h0 (by simpa using h)
    rw [if_neg h1]
    by_cases hl : s.offset + 1 = s.flen
    · exact .inr (.inr (.inl ⟨h0, hl, by rw [if_pos hl]⟩))
    · exact .inr (.inr (.inr ⟨h0, hl, by rw [if_neg hl]; rfl⟩))

/-- What a frame done answers when it has a next state: the effect of the frame that `st.shadow` holds. -/
theorem runReceived_eq_next {s t : State} (h : runReceived s = .next t) :
    ∃ k p ck, s.cidx = some k ∧ p.length = k.len ∧ s.shadowBytes s.flen.toNat = frameBytes s.cfg k p ck ∧
      t = if s.receiving then frameDone k p ck (s.holding k (frameBytes s.cfg k p ck)) else s := by
  unfold runReceived State.receivedInstr at h
  cases hk : s.cidx with
  | none => simp [hk] at h
  | some k =>
    simp only [hk] at h
    split at h
    · next i hi =>
      obtain ⟨p, ck, rfl, hp, hb⟩ := decodeFrameAs_ok hi
      rw [exec_frameInstr, receiveFrame] at h
      cases h
      exact ⟨k, p, ck, rfl, hp, hb, rfl⟩
    · cases h

end Sys2Proof.Machine
end

