-- ==== Sys2Proof/Laws/Step.lean ====
section
/-! SUPPORT. One tick, said once: its reset, its host access and its session's own tick. -/

namespace Sys2Proof.Machine

/-- All that a host access can do: nothing, an issue, or a register write. -/
theorem hostAccess_cases (h : HostAccess) (s : State) :
    hostAccess h s = .next s ∨
      (∃ a v, h = .write a v ∧ wordIndex a = 1 ∧ hostAccess h s = .next (issue (cmdOp v).toNat (cmdSel v) s)) ∨
      (∃ a v, h = .write a v ∧ wordIndex a ≠ 1 ∧ hostAccess h s = .next (s.writeWord (wordIndex a) v)) := by
  cases h with
  | idle => exact .inl rfl
  | read a => exact .inl rfl
  | write a v =>
    by_cases hw : wordIndex a = 1
    · exact .inr (.inl ⟨a, v, rfl, hw, by rw [hostAccess, if_pos hw, exec_decodeCmd]⟩)
    · exact .inr (.inr ⟨a, v, rfl, hw, by rw [hostAccess, if_neg hw]⟩)

/-- Every host access has a next state. -/
theorem hostAccess_next (h : HostAccess) (s : State) : ∃ u, hostAccess h s = .next u := by
  rcases hostAccess_cases h s with e | ⟨_, _, _, _, e⟩ | ⟨_, _, _, _, e⟩ <;> exact ⟨_, e⟩

/-- What no host access changes. -/
theorem hostAccess_keeps {h : HostAccess} {s u : State} (e : hostAccess h s = .next u) :
    u.cfg = s.cfg ∧ u.inputs = s.inputs ∧ u.tick = s.tick ∧ u.hRdata = s.hRdata ∧ u.prev = s.prev ∧ u.oe = s.oe ∧
      u.shadow = s.shadow ∧ u.shreg = s.shreg ∧ u.result = s.result ∧ u.anom0 = s.anom0 ∧ u.anom1 = s.anom1 := by
  rcases hostAccess_cases h s with e' | ⟨_, _, _, _, e'⟩ | ⟨_, _, _, _, e'⟩ <;> rw [e'] at e <;> cases e
  · simp
  · next v _ _ =>
    rcases issue_cases (cmdOp v).toNat (cmdSel v) s with ⟨-, e⟩ | ⟨-, e⟩ | ⟨-, -, e⟩ | ⟨k, -, -, -, e⟩ | ⟨-, -, -, e⟩ <;>
      rw [e] <;> simp
  · simp

/-- What a host access leaves of a session in progress: all of it. -/
theorem hostAccess_of_busy {h : HostAccess} {s u : State} (hb : s.busy = true) (e : hostAccess h s = .next u) :
    s.SameSession u := by
  rcases hostAccess_cases h s with e' | ⟨_, v, _, _, e'⟩ | ⟨_, _, _, _, e'⟩ <;> rw [e'] at e <;> cases e
  · constructor <;> simp
  · rw [issue_of_busy hb]
    constructor <;> simp [State.fbuf]
  · constructor <;> simp [State.writeWord_fbuf]

theorem checked_of_wf {s : State} (h : s.cfg.wf = true) (r : Result) : checked s r = r := by
  rw [checked, if_pos h]

/-- A configuration that breaks a constraint is refused. -/
theorem step_of_not_wf {s : State} (h : s.cfg.wf = false) : step s = .refused .badConfiguration := by
  unfold step oneTick tickWith
  split <;> simp [checked, h]

/-- A step under a well-formed configuration with reset. -/
theorem step_eq_resetTick {s : State} (hwf : s.cfg.wf = true) (hr : s.nextInput.rst = true) :
    step s = .next (resetTick s) := by
  rw [step, oneTick, tickWith, if_pos hr, checked_of_wf hwf]

/-- A step under a well-formed configuration without reset. -/
theorem step_eq_runTick {s : State} (hwf : s.cfg.wf = true) (hr : s.nextInput.rst = false) :
    step s = runTick s.nextInput s := by
  rw [step, oneTick, tickWith, if_neg (by simp [hr]), checked_of_wf hwf]

/-- All that a step can do. -/
theorem step_eq_next {s t : State} (h : step s = .next t) :
    s.cfg.wf = true ∧
      ((s.nextInput.rst = true ∧ t = resetTick s) ∨
        (s.nextInput.rst = false ∧ ∃ u v, hostAccess s.nextInput.host s = .next u ∧
          (if s.busy then handshake (resolveLines s.oe s.nextInput.peer) u else .next u) = .next v ∧
          t = v.closeTick (resolveLines s.oe s.nextInput.peer) s.inputs.tail (s.tick + 1)
            (readData s.nextInput.host s))) := by
  cases hwf : s.cfg.wf with
  | false =>
    rw [step_of_not_wf hwf] at h
    cases h
  | true =>
    refine ⟨rfl, ?_⟩
    cases hr : s.nextInput.rst with
    | true =>
      rw [step_eq_resetTick hwf hr] at h
      cases h
      exact .inl ⟨rfl, rfl⟩
    | false =>
      rw [step_eq_runTick hwf hr, runTick] at h
      obtain ⟨u, hu, h⟩ := andThen_eq_next.mp h
      obtain ⟨v, hv, h⟩ := andThen_eq_next.mp h
      cases h
      exact .inr ⟨rfl, u, v, hu, hv, rfl⟩

@[simp] theorem State.withInput_nextInput (s : State) (i : TickInput) : (s.withInput i).nextInput = i := rfl

theorem State.nextInput_of_cons {s : State} {i : TickInput} {rest : List TickInput} (h : s.inputs = i :: rest) :
    s.nextInput = i := by
  rw [State.nextInput, h]

/-- A run goes on from the state after its first step. -/
theorem run_succ {s t : State} (h : step s = .next t) (n : Nat) :
    Host.Core.run core (n + 1) s = Host.Core.run core n t := by
  have h' : core.step s = .next t := h
  simp only [Host.Core.run, h']

/-- A run of one step that has a next state is that step. -/
theorem step_of_run_one {s t : State} (h : Host.Core.run core 1 s = .next t) : step s = .next t := by
  cases hq : step s with
  | next x =>
    rw [run_succ hq] at h
    exact h
  | fault r => simp [Host.Core.run, show core.step s = .fault r from hq] at h
  | refused r => simp [Host.Core.run, show core.step s = .refused r from hq] at h

theorem run_zero (s : State) : Host.Core.run core 0 s = .next s := rfl

end Sys2Proof.Machine
end

