-- ==== Sys2Proof/Laws/Aside.lean ====
section
/-! SUPPORT. What a tick of a session carries along unread: STATUS.REJ and the inputs to come. Ticks of one session
with different inputs listed, or with a rejected issue, are compared with it. -/

namespace Sys2Proof.Machine

/-- Two fields that no tick of a session reads or writes: STATUS.REJ and the inputs to come. -/
def State.setAside (b : Bool) (r : List TickInput) (s : State) : State := { s with rej := b, inputs := r }

/-- An operation that carries STATUS.REJ and the inputs along unread. -/
def Carries (b : Bool) (r : List TickInput) (f : State → Result) : Prop :=
  ∀ s, f (s.setAside b r) = andThen (f s) fun t => .next (t.setAside b r)

theorem carries_waitFor {b : Bool} {r : List TickInput} {c : State → Bool} {n : State → Nat} {ok fail : State → Result}
    (h1 : Carries b r ok) (h2 : Carries b r fail) (hc : ∀ s : State, c (s.setAside b r) = c s)
    (hn : ∀ s : State, n (s.setAside b r) = n s) : Carries b r fun s => waitFor (c s) (n s) ok fail s := by
  intro s
  simp only [waitFor, hc, hn]
  have : (s.setAside b r).cnt = s.cnt := rfl
  rw [this]
  split
  · exact h1 (s.setCnt 0)
  · split
    · exact h2 s
    · rfl

theorem carries_holdFor {b : Bool} {r : List TickInput} {n : State → Nat} {done : State → Result}
    (h : Carries b r done) (hn : ∀ s : State, n (s.setAside b r) = n s) :
    Carries b r fun s => holdFor (n s) done s := by
  intro s
  simp only [holdFor, hn]
  have : (s.setAside b r).cnt = s.cnt := rfl
  rw [this]
  split
  · exact h (s.setCnt 0)
  · rfl

theorem carries_finish (b : Bool) (r : List TickInput) (e : Completion) (c : BitVec 6) : Carries b r (finish e c) :=
  fun _ => rfl

theorem frameDone_setAside (b : Bool) (r : List TickInput) (k : Cmd) (p : List Byte) (ck : Byte) (s : State) :
    frameDone k p ck (s.setAside b r) = (frameDone k p ck s).setAside b r := by
  have h1 : (s.setAside b r).cfg = s.cfg := rfl
  have h2 : (s.setAside b r).op = s.op := rfl
  have h3 : (s.setAside b r).latched = s.latched := rfl
  unfold frameDone
  simp only [h1, h2, h3]
  split
  · rfl
  · split <;> rfl

theorem carries_receiveFrame (b : Bool) (r : List TickInput) (k : Cmd) (p : List Byte) (ck : Byte) :
    Carries b r (receiveFrame k p ck) := by
  intro s
  have h1 : (s.setAside b r).receiving = s.receiving := rfl
  have h2 (f : List Byte) : (s.setAside b r).holding k f = (s.holding k f).setAside b r := rfl
  have h3 : (s.setAside b r).cfg = s.cfg := rfl
  simp only [receiveFrame, h1, h2, h3, andThen_next]
  split
  · rw [frameDone_setAside]
  · rfl

theorem receivedInstr_isFrame {s : State} {i : Instr} (h : s.receivedInstr = .ok i) :
    ∃ k p ck, i = frameInstr k p ck := by
  unfold State.receivedInstr at h
  split at h
  · cases h
  · next k _ =>
    unfold decodeFrameAs at h
    split at h
    · cases h
    · split_ifs at h
      cases h
      exact ⟨k, _, _, rfl⟩

theorem carries_rxByteDone (b : Bool) (r : List TickInput) : Carries b r rxByteDone := by
  intro s
  have h1 : (s.setAside b r).offset = s.offset := rfl
  have h2 : (s.setAside b r).flen = s.flen := rfl
  have h3 : lookup (s.setAside b r).cfg (s.setAside b r).op (s.setAside b r).latched.sel (s.setAside b r).latched.pf
      ((s.setAside b r).shadow.read 0) = lookup s.cfg s.op s.latched.sel s.latched.pf (s.shadow.read 0) := rfl
  have h4 : (s.setAside b r).receivedInstr = s.receivedInstr := rfl
  unfold rxByteDone
  rw [h1, h2]
  split
  · unfold commandByteDone
    rw [h3]
    cases lookup s.cfg s.op s.latched.sel s.latched.pf (s.shadow.read 0) <;> rfl
  · split
    · unfold runReceived
      rw [h4]
      cases h : s.receivedInstr with
      | error e => rfl
      | ok i =>
        obtain ⟨k, p, ck, rfl⟩ := receivedInstr_isFrame h
        simp only [exec_frameInstr]
        exact carries_receiveFrame b r k p ck s
    · rfl

theorem carries_senderByteDone (b : Bool) (r : List TickInput) : Carries b r senderByteDone := by
  intro s
  have h1 : (s.setAside b r).offset = s.offset := rfl
  have h2 : (s.setAside b r).flen = s.flen := rfl
  unfold senderByteDone
  rw [h1, h2]
  split <;> rfl

theorem carries_next {b : Bool} {r : List TickInput} {f : State → State}
    (h : ∀ s : State, f (s.setAside b r) = (f s).setAside b r) : Carries b r fun s => .next (f s) :=
  fun s => congrArg Host.Outcome.next (h s)

/-- No tick of a session reads or writes STATUS.REJ or the inputs to come. -/
theorem carries_handshake (b : Bool) (r : List TickInput) (l : Lines) : Carries b r (handshake l) := by
  intro s
  have h1 : (s.setAside b r).role = s.role := rfl
  have h2 : (s.setAside b r).hs = s.hs := rfl
  have h3 : (s.setAside b r).ph = s.ph := rfl
  have cell (u : State) : senderCellDone (u.setAside b r) = (senderCellDone u).setAside b r := by
    have h : (u.setAside b r).bitn = u.bitn := rfl
    unfold senderCellDone
    rw [h]
    split <;> rfl
  have samp (u : State) : sample l (u.setAside b r) = (sample l u).setAside b r := by
    have h : (u.setAside b r).bitn = u.bitn := rfl
    have h' : (u.setAside b r).hs = u.hs := rfl
    unfold sample
    simp only [h, h']
    split <;> rfl
  have start : Carries b r (awaitStart l) :=
    carries_waitFor (carries_next fun _ => rfl) (carries_finish b r _ _) (fun _ => rfl) fun _ => rfl
  have cells : Carries b r (awaitCell l) :=
    carries_waitFor (carries_next samp) (carries_finish b r _ _) (fun _ => rfl) fun _ => rfl
  have sIdle : Carries b r (senderIdle l) :=
    carries_waitFor (carries_next fun _ => rfl) (carries_finish b r _ _) (fun _ => rfl) fun _ => rfl
  have sStart : Carries b r senderStart := carries_holdFor (carries_next fun _ => rfl) fun _ => rfl
  have sHigh : Carries b r senderBitHigh := carries_holdFor (carries_next fun _ => rfl) fun _ => rfl
  have sLow : Carries b r senderBitLow := carries_holdFor (carries_next cell) fun _ => rfl
  have sAckLow : Carries b r (senderAckLow l) :=
    carries_waitFor (carries_next fun _ => rfl) (carries_finish b r _ _) (fun _ => rfl) fun _ => rfl
  have sAckHigh : Carries b r (senderAckHigh l) :=
    carries_waitFor (carries_senderByteDone b r) (carries_finish b r _ _) (fun _ => rfl) fun _ => rfl
  have rStart : Carries b r (receiverAckStart l) :=
    carries_waitFor (carries_next fun _ => rfl) (carries_finish b r _ _) (fun _ => rfl) fun _ => rfl
  have rHold : Carries b r receiverAckHold :=
    carries_holdFor (fun u => carries_rxByteDone b r (u.setOe { u.oe with ack := false })) fun _ => rfl
  have oLow : Carries b r (observerAckLow l) :=
    carries_waitFor (carries_next fun _ => rfl) (carries_finish b r _ _) (fun _ => rfl) fun _ => rfl
  have oHigh : Carries b r (observerAckHigh l) :=
    carries_waitFor (carries_rxByteDone b r) (carries_finish b r _ _) (fun _ => rfl) fun _ => rfl
  unfold handshake
  rw [h1]
  cases s.role with
  | none => rfl
  | sender =>
    dsimp only
    unfold senderStep
    rw [h2, h3]
    rcases s.hs with _ | _ | _ | _ | _
    · exact sIdle s
    · exact sStart s
    · cases s.ph
      · exact sHigh s
      · exact sLow s
    · cases s.ph
      · exact sAckLow s
      · exact sAckHigh s
    · rfl
  | receiver =>
    dsimp only
    unfold receiverStep
    rw [h2, h3]
    rcases s.hs with _ | _ | _ | _ | _
    · exact start s
    · exact cells s
    · exact cells s
    · cases s.ph
      · exact rStart s
      · exact rHold s
    · rfl
  | observer =>
    dsimp only
    unfold observerStep
    rw [h2, h3]
    rcases s.hs with _ | _ | _ | _ | _
    · exact start s
    · exact cells s
    · exact cells s
    · cases s.ph
      · exact oLow s
      · exact oHigh s
    · rfl

end Sys2Proof.Machine
end

