-- ==== Sys2Proof/Laws/Compatibility.lean ====
section
/-! SUPPORT. How long a receiver and an observer wait for Clock after an acknowledge, and how long a sender leaves it
released there (40_handshake.md R156 to R166), which is where the timing conditions of 70_reset_and_hazards.md R354 come from (log entry 23). -/

namespace Sys2Proof.Machine

/-- A receiving session in its wait for a Clock fall, `c` ticks of which are spent, with Clock last seen released. -/
structure State.AwaitsCell (s : State) (c : Nat) : Prop where
  cfg : s.cfg.wf = true
  busy : s.busy = true
  role : s.role = .receiver ∨ s.role = .observer
  hs : s.hs = .start ∨ s.hs = .bit
  cnt : s.cnt.toNat = c
  prev : s.prev.clock = true
  oe : s.oe.clock = false

/-- A tick of such a session is one tick of R161, whatever the host does. -/
theorem step_awaitsCell {s : State} {c : Nat} (h : s.AwaitsCell c) (hr : s.nextInput.rst = false) :
    ∃ u : State, u.AwaitsCell c ∧ u.latched = s.latched ∧
      step s = andThen (awaitCell (resolveLines s.oe s.nextInput.peer) u) fun v =>
        .next (v.closeTick (resolveLines s.oe s.nextInput.peer) s.inputs.tail (s.tick + 1)
          (readData s.nextInput.host s)) := by
  obtain ⟨u, hu⟩ := hostAccess_next s.nextInput.host s
  have same := hostAccess_of_busy h.busy hu
  have kept := hostAccess_keeps hu
  have hrole : u.role = .receiver ∨ u.role = .observer := same.role ▸ h.role
  have hhs : u.hs = .start ∨ u.hs = .bit := same.hs ▸ h.hs
  refine ⟨u, ⟨kept.1 ▸ h.cfg, same.busy ▸ h.busy, hrole, hhs, same.cnt ▸ h.cnt, same.prev ▸ h.prev, same.oe ▸ h.oe⟩,
    same.latched.symm, ?_⟩
  rw [step_eq_runTick h.cfg hr, runTick, hu, andThen_next, if_pos h.busy, handshake_awaitCell _ hrole hhs]

/-- Without a fall of Clock and below the bound, the wait goes on. -/
theorem step_awaitsCell_counts {s : State} {c : Nat} (h : s.AwaitsCell c) (hr : s.nextInput.rst = false)
    (hc : s.nextInput.peer.clock = false) (hb : c + 1 < s.latched.tbit.toNat) :
    ∃ t, step s = .next t ∧ t.AwaitsCell (c + 1) ∧ t.latched = s.latched ∧ t.inputs = s.inputs.tail := by
  obtain ⟨u, hu, hl, e⟩ := step_awaitsCell h hr
  have hoe := h.oe
  have hfall : u.clockFell (resolveLines s.oe s.nextInput.peer) = false := by
    simp [State.clockFell, resolveLines, hc, hoe]
  have hn : ¬ u.tbitBound ≤ u.cnt.toNat + 1 := by
    rw [State.tbitBound, hl, hu.cnt]
    omega
  rw [awaitCell, waitFor, hfall, if_neg Bool.false_ne_true, if_neg hn] at e
  refine ⟨_, e, ⟨hu.cfg, hu.busy, hu.role, hu.hs, ?_, ?_, hu.oe⟩, hl, rfl⟩
  · have := cnt_succ (c := u.cnt) (n := 2 ^ 32) (by have := s.latched.tbit.isLt; rw [hu.cnt]; omega) le_rfl
    simp only [State.closeTick_cnt, State.setCnt_cnt, this, hu.cnt]
  · simp [resolveLines, hc, hoe]

/-- A fall of Clock is sampled at every tick of the wait, the last one among them. -/
theorem step_awaitsCell_samples {s : State} {c : Nat} (h : s.AwaitsCell c) (hr : s.nextInput.rst = false)
    (hc : s.nextInput.peer.clock = true) :
    ∃ t, step s = .next t ∧ t.busy = true ∧ t.hs ≠ .start ∧ t.cnt = 0 := by
  obtain ⟨u, hu, -, e⟩ := step_awaitsCell h hr
  have hfall : u.clockFell (resolveLines s.oe s.nextInput.peer) = true := by
    simp [State.clockFell, resolveLines, hc, hu.prev]
  rw [awaitCell, waitFor, hfall, if_pos rfl] at e
  refine ⟨_, e, ?_⟩
  have hb := hu.busy
  unfold sample
  split <;> simp [hb]

/-- Without a fall of Clock, the tick that reaches the bound ends the session with Timeout. -/
theorem step_awaitsCell_expires {s : State} {c : Nat} (h : s.AwaitsCell c) (hr : s.nextInput.rst = false)
    (hc : s.nextInput.peer.clock = false) (hb : s.latched.tbit.toNat ≤ c + 1) :
    ∃ t, step s = .next t ∧ t.busy = false ∧ t.hs = .timedOut := by
  obtain ⟨u, hu, hl, e⟩ := step_awaitsCell h hr
  have hoe := h.oe
  have hfall : u.clockFell (resolveLines s.oe s.nextInput.peer) = false := by
    simp [State.clockFell, resolveLines, hc, hoe]
  have hn : u.tbitBound ≤ u.cnt.toNat + 1 := by
    rw [State.tbitBound, hl, hu.cnt]
    exact hb
  rw [awaitCell, waitFor, hfall, if_neg Bool.false_ne_true, if_pos hn] at e
  exact ⟨_, e, by simp, by simp⟩

/-- A tick in which Clock is released by the peer, and no reset. -/
def ClockHigh (i : TickInput) : Prop := i.rst = false ∧ i.peer.clock = false

/-- The wait counts through ticks with Clock released, as long as they leave it below its bound. -/
theorem run_awaitsCell_counts (quiet : List TickInput) :
    ∀ (s : State) (c : Nat) (rest : List TickInput), s.AwaitsCell c → s.inputs = quiet ++ rest →
      (∀ i ∈ quiet, ClockHigh i) → c + quiet.length < s.latched.tbit.toNat →
      ∃ t, Host.Core.run core quiet.length s = .next t ∧ t.AwaitsCell (c + quiet.length) ∧ t.latched = s.latched ∧
        t.inputs = rest := by
  induction quiet with
  | nil => exact fun s c rest h hi _ _ => ⟨s, rfl, h, rfl, hi⟩
  | cons i quiet ih =>
    intro s c rest h hi hq hb
    rw [List.length_cons] at hb
    have hn : s.nextInput = i := State.nextInput_of_cons hi
    obtain ⟨hr, hc⟩ := hq i List.mem_cons_self
    obtain ⟨u, hu, hu', hl, hui⟩ := step_awaitsCell_counts h (hn ▸ hr) (hn ▸ hc) (by omega)
    obtain ⟨t, ht, ht', hlt, hti⟩ := ih u (c + 1) rest hu' (by rw [hui, hi]; rfl)
      (fun j hj => hq j (List.mem_cons_of_mem _ hj)) (by rw [hl]; omega)
    refine ⟨t, ?_, ?_, hlt.trans hl, hti⟩
    · rw [List.length_cons, run_succ hu, ht]
    · rw [List.length_cons, Nat.add_comm quiet.length, ← Nat.add_assoc]
      exact ht'

/-- Runs add up. -/
theorem run_add {s t : State} {m : Nat} (h : Host.Core.run core m s = .next t) (n : Nat) :
    Host.Core.run core (m + n) s = Host.Core.run core n t := by
  induction m generalizing s with
  | zero =>
    rw [run_zero] at h
    cases h
    rw [Nat.zero_add]
  | succ m ih =>
    cases hq : step s with
    | next u =>
      rw [run_succ hq] at h
      rw [Nat.add_right_comm, run_succ hq, ih h]
    | fault r => simp [Host.Core.run, show core.step s = .fault r from hq] at h
    | refused r => simp [Host.Core.run, show core.step s = .refused r from hq] at h

/-- A wait that begins now samples a Clock fall that comes after `quiet.length` released ticks if that is below the
bound `tbit`. -/
theorem cell_in_time {s : State} {quiet rest : List TickInput} {fall : TickInput} (h : s.AwaitsCell 0)
    (hi : s.inputs = quiet ++ fall :: rest) (hq : ∀ i ∈ quiet, ClockHigh i) (hf : fall.rst = false)
    (hc : fall.peer.clock = true) (hb : quiet.length + 1 ≤ s.latched.tbit.toNat) :
    ∃ t, Host.Core.run core (quiet.length + 1) s = .next t ∧ t.busy = true ∧ t.hs ≠ .start ∧ t.cnt = 0 := by
  obtain ⟨u, hu, hw, -, hui⟩ := run_awaitsCell_counts quiet s 0 _ h hi hq (by omega)
  have hn : u.nextInput = fall := State.nextInput_of_cons hui
  obtain ⟨t, ht, h1, h2, h3⟩ := step_awaitsCell_samples hw (hn ▸ hf) (hn ▸ hc)
  exact ⟨t, by rw [run_add hu, run_succ ht, run_zero], h1, h2, h3⟩

/-- A wait that begins now ends in Timeout if Clock stays released for `tbit` ticks. -/
theorem cell_too_late {s : State} {quiet rest : List TickInput} (h : s.AwaitsCell 0) (hi : s.inputs = quiet ++ rest)
    (hq : ∀ i ∈ quiet, ClockHigh i) (h1 : 1 ≤ quiet.length) (hb : quiet.length = s.latched.tbit.toNat) :
    ∃ t, Host.Core.run core quiet.length s = .next t ∧ t.busy = false ∧ t.hs = .timedOut := by
  obtain ⟨front, last, rfl⟩ : ∃ front last, quiet = front ++ [last] :=
    ⟨_, _, (List.dropLast_append_getLast (List.length_pos_iff.mp h1)).symm⟩
  rw [List.append_assoc, List.singleton_append] at hi
  rw [List.length_append, List.length_singleton] at hb ⊢
  obtain ⟨u, hu, hw, hl, hui⟩ :=
    run_awaitsCell_counts front s 0 _ h hi (fun i m => hq i (List.mem_append_left _ m)) (by omega)
  have hn : u.nextInput = last := State.nextInput_of_cons hui
  obtain ⟨hr, hc⟩ := hq last (by simp)
  obtain ⟨t, ht, h2, h3⟩ := step_awaitsCell_expires hw (hn ▸ hr) (hn ▸ hc) (by rw [hl]; omega)
  exact ⟨t, by rw [run_add hu, run_succ ht, run_zero], h2, h3⟩

/-- The tick in which an observer sees Ack high again, inside a frame, begins its wait for the next cell with all of
`tbit` (40_handshake.md R164, R166, 00_scope.md R9). -/
theorem observer_awaits_after_ack {s : State} (hw : s.cfg.wf = true) (hb : s.busy = true) (hr : s.role = .observer)
    (hh : s.hs = .ack) (hp : s.ph = true) (ho : s.oe = Lines.released) (h0 : s.offset ≠ 0)
    (hl : s.offset + 1 ≠ s.flen) (hi : ClockHigh s.nextInput) (ha : s.nextInput.peer.ack = false) :
    ∃ t, step s = .next t ∧ t.AwaitsCell 0 ∧ t.latched = s.latched ∧ t.inputs = s.inputs.tail := by
  obtain ⟨u, hu⟩ := hostAccess_next s.nextInput.host s
  have same := hostAccess_of_busy hb hu
  have hack : (resolveLines s.oe s.nextInput.peer).ack = true := by simp [resolveLines, ho, ha, Lines.released]
  have hclk : (resolveLines s.oe s.nextInput.peer).clock = true := by simp [resolveLines, ho, hi.2, Lines.released]
  have e : step s = _ := step_eq_runTick hw hi.1
  rw [runTick, hu, andThen_next, if_pos hb, handshake_observerAckHigh _ (same.role ▸ hr) (same.hs ▸ hh)
    (same.ph ▸ hp), observerAckHigh, waitFor, if_pos hack] at e
  rcases rxByteDone_cases (u.setCnt 0) with ⟨x, -⟩ | ⟨_, x, -⟩ | ⟨-, x, -⟩ | ⟨-, -, e'⟩
  · exact absurd (same.offset.trans x) h0
  · exact absurd (same.offset.trans x) h0
  · exact absurd (same.offset ▸ same.flen ▸ x) hl
  · rw [e', andThen_next] at e
    refine ⟨_, e, ⟨(hostAccess_keeps hu).1 ▸ hw, same.busy ▸ hb, .inr (same.role ▸ hr), .inr rfl, rfl, hclk, ?_⟩,
      same.latched.symm, rfl⟩
    exact (congrArg Lines.clock same.oe).symm.trans (by rw [ho]; rfl)

/-- An observer that sees Ack high again and then a Clock fall after `quiet.length` released ticks goes on exactly as
R161 says: `tbit` of `quiet.length + 1` is enough. Beside a sender of this spec those ticks are `thalf_S`
(`sender_pulls_clock_after_thalf`), so `thalf_S + 1` is enough, where R354(c) asks `thalf_S + 2` (log entry 23). -/
theorem observer_goes_on_after_ack {s : State} {ackEnd fall : TickInput} {quiet rest : List TickInput}
    (hw : s.cfg.wf = true) (hb : s.busy = true) (hr : s.role = .observer) (hh : s.hs = .ack) (hp : s.ph = true)
    (ho : s.oe = Lines.released) (h0 : s.offset ≠ 0) (hl : s.offset + 1 ≠ s.flen)
    (hi : s.inputs = ackEnd :: (quiet ++ fall :: rest)) (he : ClockHigh ackEnd) (ha : ackEnd.peer.ack = false)
    (hq : ∀ i ∈ quiet, ClockHigh i) (hf : fall.rst = false) (hc : fall.peer.clock = true)
    (ht : quiet.length + 1 ≤ s.latched.tbit.toNat) :
    ∃ t, Host.Core.run core (quiet.length + 2) s = .next t ∧ t.busy = true ∧ t.hs ≠ .start ∧ t.cnt = 0 := by
  have hn : s.nextInput = ackEnd := State.nextInput_of_cons hi
  obtain ⟨u, hu, hu', hul, hui⟩ := observer_awaits_after_ack hw hb hr hh hp ho h0 hl (hn ▸ he) (hn ▸ ha)
  obtain ⟨t, e, h⟩ := cell_in_time hu' (by rw [hui, hi]; rfl) hq hf hc (by rw [hul]; exact ht)
  exact ⟨t, by rw [run_succ hu, e], h⟩

/-! The sender's side: how long it leaves Clock released after an acknowledge -/

/-- A sending session in the first half of a bit cell, `c` ticks of which are spent (40_handshake.md R156). -/
structure State.HoldsCell (s : State) (c : Nat) : Prop where
  cfg : s.cfg.wf = true
  busy : s.busy = true
  role : s.role = .sender
  hs : s.hs = .bit
  ph : s.ph = false
  cnt : s.cnt.toNat = c
  oe : s.oe.clock = false

/-- A tick of such a session, whatever the host and the peer do: it counts, or at its bound pulls Clock. -/
theorem step_holdsCell {s : State} {c : Nat} (h : s.HoldsCell c) (hr : s.nextInput.rst = false) :
    ∃ t, step s = .next t ∧ t.latched = s.latched ∧ t.inputs = s.inputs.tail ∧
      (c + 1 < s.latched.thalf.toNat → t.HoldsCell (c + 1)) ∧
      (s.latched.thalf.toNat ≤ c + 1 → t.busy = true ∧ t.oe.clock = true) := by
  obtain ⟨u, hu⟩ := hostAccess_next s.nextInput.host s
  have same := hostAccess_of_busy h.busy hu
  have hc : u.cnt.toNat = c := same.cnt ▸ h.cnt
  have e : step s = _ := step_eq_runTick h.cfg hr
  rw [runTick, hu, andThen_next, if_pos h.busy, handshake_senderBitHigh _ (same.role ▸ h.role) (same.hs ▸ h.hs)
    (same.ph ▸ h.ph), senderBitHigh] at e
  rcases holdFor_cases u.thalfBound _ u with ⟨hn, e'⟩ | ⟨hn, e'⟩ <;> rw [e', andThen_next] at e <;>
    rw [State.thalfBound, ← same.latched, hc] at hn
  · exact ⟨_, e, same.latched.symm, rfl, fun hlt => absurd hlt (by omega), fun _ => ⟨same.busy ▸ h.busy, rfl⟩⟩
  · have hcnt := cnt_succ (c := u.cnt) (n := 2 ^ 32) (by have := s.latched.thalf.isLt; omega) le_rfl
    refine ⟨_, e, same.latched.symm, rfl, fun _ => ⟨(hostAccess_keeps hu).1 ▸ h.cfg, same.busy ▸ h.busy,
      same.role ▸ h.role, same.hs ▸ h.hs, same.ph ▸ h.ph, ?_, same.oe ▸ h.oe⟩, fun hle => absurd hle (by omega)⟩
    simp only [State.closeTick_cnt, State.setCnt_cnt, hcnt, hc]

/-- The sender leaves Clock released in each of the ticks of the cell's first half. -/
theorem run_holdsCell (ticks : List TickInput) :
    ∀ (s : State) (c : Nat) (rest : List TickInput), s.HoldsCell c → s.inputs = ticks ++ rest →
      (∀ i ∈ ticks, i.rst = false) → c + ticks.length < s.latched.thalf.toNat →
      ∃ t, Host.Core.run core ticks.length s = .next t ∧ t.HoldsCell (c + ticks.length) ∧ t.latched = s.latched ∧
        t.inputs = rest := by
  induction ticks with
  | nil => exact fun s c rest h hi _ _ => ⟨s, rfl, h, rfl, hi⟩
  | cons i ticks ih =>
    intro s c rest h hi hq hb
    rw [List.length_cons] at hb
    have hn : s.nextInput = i := State.nextInput_of_cons hi
    obtain ⟨u, hu, hl, hui, hu', -⟩ := step_holdsCell h (hn ▸ hq i List.mem_cons_self)
    obtain ⟨t, ht, ht', hlt, hti⟩ := ih u (c + 1) rest (hu' (by omega)) (by rw [hui, hi]; rfl)
      (fun j hj => hq j (List.mem_cons_of_mem _ hj)) (by rw [hl]; omega)
    refine ⟨t, ?_, ?_, hlt.trans hl, hti⟩
    · rw [List.length_cons, run_succ hu, ht]
    · rw [List.length_cons, Nat.add_comm ticks.length, ← Nat.add_assoc]
      exact ht'

/-- The tick in which a sender sees Ack high again, inside a frame, begins the next byte's first cell (R158, R159). -/
theorem sender_holds_after_ack {s : State} (hw : s.cfg.wf = true) (hb : s.busy = true) (hr : s.role = .sender)
    (hh : s.hs = .ack) (hp : s.ph = true) (ho : s.oe.ack = false ∧ s.oe.clock = false) (hl : s.offset + 1 ≠ s.flen)
    (hi : s.nextInput.rst = false) (ha : s.nextInput.peer.ack = false) :
    ∃ t, step s = .next t ∧ t.HoldsCell 0 ∧ t.latched = s.latched ∧ t.inputs = s.inputs.tail := by
  obtain ⟨u, hu⟩ := hostAccess_next s.nextInput.host s
  have same := hostAccess_of_busy hb hu
  have hack : (resolveLines s.oe s.nextInput.peer).ack = true := by simp [resolveLines, ho.1, ha]
  have hlast : ¬ (u.setCnt 0).offset + 1 = (u.setCnt 0).flen := by
    rw [State.setCnt_offset, State.setCnt_flen, ← same.offset, ← same.flen]
    exact hl
  have e : step s = _ := step_eq_runTick hw hi
  rw [runTick, hu, andThen_next, if_pos hb, handshake_senderAckHigh _ (same.role ▸ hr) (same.hs ▸ hh) (same.ph ▸ hp),
    senderAckHigh, waitFor, if_pos hack, senderByteDone, if_neg hlast, andThen_next] at e
  refine ⟨_, e, ?_, by simp [same.latched], by simp⟩
  constructor <;> simp [(hostAccess_keeps hu).1, hw, ← same.busy, hb, ← same.role, hr, ← same.oe, ho.2]

/-- After the tick in which it sees Ack high, a sender leaves Clock released for exactly `thalf` ticks and pulls it in
the next one. An observer sees Ack high in that same tick, so `thalf` is the `quiet.length` of
`observer_goes_on_after_ack`. -/
theorem sender_pulls_clock_after_thalf {s : State} {ackEnd last : TickInput} {front rest : List TickInput}
    (hw : s.cfg.wf = true) (hb : s.busy = true) (hr : s.role = .sender) (hh : s.hs = .ack) (hp : s.ph = true)
    (ho : s.oe.ack = false ∧ s.oe.clock = false) (hl : s.offset + 1 ≠ s.flen)
    (hi : s.inputs = ackEnd :: (front ++ last :: rest)) (he : ackEnd.rst = false) (ha : ackEnd.peer.ack = false)
    (hq : ∀ i ∈ front, i.rst = false) (hf : last.rst = false) (ht : front.length + 1 = s.latched.thalf.toNat) :
    (∀ j, j ≤ front.length → ∃ t, Host.Core.run core (j + 1) s = .next t ∧ t.busy = true ∧ t.oe.clock = false) ∧
      ∃ t, Host.Core.run core (front.length + 2) s = .next t ∧ t.busy = true ∧ t.oe.clock = true := by
  have hn : s.nextInput = ackEnd := State.nextInput_of_cons hi
  obtain ⟨u, hu, hu', hul, hui⟩ := sender_holds_after_ack hw hb hr hh hp ho hl (hn ▸ he) (hn ▸ ha)
  have hui' : u.inputs = front ++ last :: rest := by rw [hui, hi]; rfl
  constructor
  · intro j hj
    have hlen : (front.take j).length = j := List.length_take_of_le hj
    obtain ⟨v, hv, hv', -⟩ := run_holdsCell (front.take j) u 0 (front.drop j ++ last :: rest) hu'
      (by rw [hui', ← List.append_assoc, List.take_append_drop]) (fun i m => hq i (List.mem_of_mem_take m))
      (by rw [hul, hlen]; omega)
    exact ⟨v, by rw [run_succ hu, ← hv, hlen], hv'.busy, hv'.oe⟩
  · obtain ⟨v, hv, hv', hvl, hvi⟩ := run_holdsCell front u 0 (last :: rest) hu' hui' hq (by rw [hul]; omega)
    have hn' : v.nextInput = last := State.nextInput_of_cons hvi
    obtain ⟨t, e, -, -, -, hpull⟩ := step_holdsCell hv' (hn' ▸ hf)
    exact ⟨t, by rw [run_succ hu, run_add hv, run_succ e, run_zero], hpull (by rw [hvl, hul]; omega)⟩

end Sys2Proof.Machine
end

