-- ==== Sys2Proof/Laws/PerInstr.lean ====
section
/-! SUPPORT. The per-instruction family EncodedWidth: the width of every instruction's encoding
(30_encoding.md R110: a CMD word has 32 bits; R114: a frame has `LEN[k] + 2` bytes). -/

namespace Sys2Proof.Laws.EncodedWidth

open Sys2Proof.Machine

/-- The width that 30_encoding.md gives an instruction. -/
def width (i : Instr) : Nat :=
  match frameOf i with
  | none => 32
  | some (k, _, _) => 8 * k.flen

/-- A well-formed instruction's encoding has the width of its row. -/
def Statement (i : Instr) : Prop := ∀ c : Config, i.wf = true → (encode c i).bits = width i

/-- The width of a frame whose payload has its command's length. -/
theorem frame_bits (c : Config) (k : Cmd) (p : List Byte) (ck : Byte) (h : p.length = k.len) :
    Encoded.bits (.frame (frameBytes c k p ck)) = 8 * k.flen := by
  simp [Encoded.bits, frameBytes, Cmd.flen, h]

theorem nop (ign : BitVec 5) (sel : BitVec 4) (high : BitVec 20) : Statement (.nop ign sel high) :=
  fun _ _ => rfl

theorem listen (ign : BitVec 5) (sel : BitVec 4) (high : BitVec 20) : Statement (.listen ign sel high) :=
  fun _ _ => rfl

theorem send (ign : BitVec 5) (sel : BitVec 4) (high : BitVec 20) : Statement (.send ign sel high) :=
  fun _ _ => rfl

theorem receive (ign : BitVec 5) (sel : BitVec 4) (high : BitVec 20) : Statement (.receive ign sel high) :=
  fun _ _ => rfl

theorem reservedOp4 (ign : BitVec 5) (sel : BitVec 4) (high : BitVec 20) : Statement (.reservedOp4 ign sel high) :=
  fun _ _ => rfl

theorem reservedOp5 (ign : BitVec 5) (sel : BitVec 4) (high : BitVec 20) : Statement (.reservedOp5 ign sel high) :=
  fun _ _ => rfl

theorem reservedOp6 (ign : BitVec 5) (sel : BitVec 4) (high : BitVec 20) : Statement (.reservedOp6 ign sel high) :=
  fun _ _ => rfl

theorem reservedOp7 (ign : BitVec 5) (sel : BitVec 4) (high : BitVec 20) : Statement (.reservedOp7 ign sel high) :=
  fun _ _ => rfl

theorem sendReservedCmdsel (ign : BitVec 5) (selLo : BitVec 2) (high : BitVec 20) :
    Statement (.sendReservedCmdsel ign selLo high) :=
  fun _ _ => rfl

theorem receiveReservedCmdsel (ign : BitVec 5) (selLo : BitVec 2) (high : BitVec 20) :
    Statement (.receiveReservedCmdsel ign selLo high) :=
  fun _ _ => rfl

theorem init0 (p : List Byte) (ck : Byte) : Statement (.init0 p ck) :=
  fun c h => frame_bits c .init0 p ck (by simpa [Instr.wf] using h)

theorem init1 (p : List Byte) (ck : Byte) : Statement (.init1 p ck) :=
  fun c h => frame_bits c .init1 p ck (by simpa [Instr.wf] using h)

theorem init2 (p : List Byte) (ck : Byte) : Statement (.init2 p ck) :=
  fun c h => frame_bits c .init2 p ck (by simpa [Instr.wf] using h)

theorem flashSetting (p : List Byte) (ck : Byte) : Statement (.flashSetting p ck) :=
  fun c h => frame_bits c .flashSetting p ck (by simpa [Instr.wf] using h)

theorem camSetting (p : List Byte) (ck : Byte) : Statement (.camSetting p ck) :=
  fun c h => frame_bits c .camSetting p ck (by simpa [Instr.wf] using h)

theorem postflash1 (p : List Byte) (ck : Byte) : Statement (.postflash1 p ck) :=
  fun c h => frame_bits c .postflash1 p ck (by simpa [Instr.wf] using h)

theorem postflash2 (p : List Byte) (ck : Byte) : Statement (.postflash2 p ck) :=
  fun c h => frame_bits c .postflash2 p ck (by simpa [Instr.wf] using h)

theorem afIllumination (p : List Byte) (ck : Byte) : Statement (.afIllumination p ck) :=
  fun c h => frame_bits c .afIllumination p ck (by simpa [Instr.wf] using h)

theorem redEyeReduction (p : List Byte) (ck : Byte) : Statement (.redEyeReduction p ck) :=
  fun c h => frame_bits c .redEyeReduction p ck (by simpa [Instr.wf] using h)

theorem modellingLight (p : List Byte) (ck : Byte) : Statement (.modellingLight p ck) :=
  fun c h => frame_bits c .modellingLight p ck (by simpa [Instr.wf] using h)

theorem preflash1 (p : List Byte) (ck : Byte) : Statement (.preflash1 p ck) :=
  fun c h => frame_bits c .preflash1 p ck (by simpa [Instr.wf] using h)

theorem preflash2 (p : List Byte) (ck : Byte) : Statement (.preflash2 p ck) :=
  fun c h => frame_bits c .preflash2 p ck (by simpa [Instr.wf] using h)

end Sys2Proof.Laws.EncodedWidth
end

