-- ==== Sys2Proof/Laws/Serializer.lean ====
section
/-! SUPPORT. What the operations of the bit-field serializer do, bit by bit (42_message_catalog.md R243 to R248). -/

namespace Sys2Proof.Machine

theorem maskBits_getLsbD (w i : Nat) (h : w ≤ 8) : (maskBits w).getLsbD i = decide (i < w) := by
  by_cases hi : i < 8
  · interval_cases w <;> interval_cases i <;> rfl
  · rw [BitVec.getLsbD_of_ge _ _ (by omega)]
    simp
    omega

/-- Each bit of a field value is the payload's, and 0 above the entry's width. -/
theorem fieldOf_getLsbD (e : Entry) (p : List Byte) (h : e.width ≤ 8) (b : Nat) :
    (fieldOf e p).getLsbD b = (decide (b < e.width) && (p.getD e.byte 0).getLsbD (e.lo + b)) := by
  unfold fieldOf
  rw [BitVec.getLsbD_and, maskBits_getLsbD _ _ h, BitVec.getLsbD_ushiftRight, Bool.and_comm]

/-- What a well-formed entry list gives (R120, R243). -/
theorem wf_of_layoutWf {len : Nat} {es : List Entry} (h : layoutWf len es = true) :
    (∀ e ∈ es, e.byte < len ∧ e.lo ≤ 7 ∧ 1 ≤ e.width ∧ e.lo + e.width ≤ 8) ∧
      es.Pairwise Entry.disjoint ∧ es.length ≤ 64 := by
  simp only [layoutWf, Bool.and_eq_true, List.all_eq_true, decide_eq_true_eq] at h
  refine ⟨fun e he => ?_, h.1.2, h.2⟩
  have := h.1.1 e he
  simp only [Entry.wf, Bool.and_eq_true, decide_eq_true_eq] at this
  omega

@[simp] theorem extract_length (c : Config) (k : Cmd) (p : List Byte) : (extract c k p).length = 64 := by
  simp [extract]

theorem extract_getD_of_entry (c : Config) (k : Cmd) (p : List Byte) (j : Nat) (e : Entry)
    (h : j < 64) (he : (c.layout k)[j]? = some e) : (extract c k p).getD j 0 = fieldOf e p := by
  unfold extract
  rw [getD_map_range, if_pos h, he]

/-- Each bit of a byte with a field inserted is the value's in the entry's range, and the byte's elsewhere. -/
theorem insertBits_getLsbD (e : Entry) (v b : Byte) (i : Nat) (h : e.lo + e.width ≤ 8) (hi : i < 8) :
    (insertBits e v b).getLsbD i =
      if e.lo ≤ i ∧ i < e.lo + e.width then v.getLsbD (i - e.lo) else b.getLsbD i := by
  unfold insertBits
  simp only [BitVec.getLsbD_or, BitVec.getLsbD_and, BitVec.getLsbD_not, BitVec.getLsbD_shiftLeft,
    maskBits_getLsbD _ _ (show e.width ≤ 8 by omega)]
  by_cases h1 : e.lo ≤ i
  · have : ¬ i < e.lo := by omega
    by_cases h2 : i < e.lo + e.width
    · have : i - e.lo < e.width := by omega
      simp [*]
    · have : ¬ i - e.lo < e.width := by omega
      simp [*]
  · have : i < e.lo := by omega
    simp [*]

@[simp] theorem insertField_length (e : Entry) (v : Byte) (p : List Byte) :
    (insertField e v p).length = p.length := by
  simp [insertField]

/-- Each bit of a payload with a field inserted. -/
theorem insertField_getLsbD (e : Entry) (v : Byte) (p : List Byte) (h : e.lo + e.width ≤ 8)
    (hl : e.byte < p.length) (i b : Nat) (hb : b < 8) :
    ((insertField e v p).getD i 0).getLsbD b =
      if e.byte = i ∧ e.lo ≤ b ∧ b < e.lo + e.width then v.getLsbD (b - e.lo) else (p.getD i 0).getLsbD b := by
  unfold insertField
  by_cases hi : e.byte = i
  · subst hi
    have : (p.set e.byte (insertBits e v (p.getD e.byte 0))).getD e.byte 0 =
        insertBits e v (p.getD e.byte 0) := by
      simp [List.getD, hl]
    rw [this, insertBits_getLsbD _ _ _ _ h hb]
    simp
  · have : (p.set e.byte (insertBits e v (p.getD e.byte 0))).getD i 0 = p.getD i 0 := by
      simp [List.getD, List.getElem?_set_ne hi]
    rw [this, if_neg fun h => hi h.1]

@[simp] theorem insertFields_length (es : List Entry) (fv : Nat → Byte) (p : List Byte) :
    (insertFields es fv p).length = p.length := by
  induction es generalizing fv p with
  | nil => rfl
  | cons e es ih => rw [insertFields, ih, insertField_length]

/-- One entry marks its byte exactly when its constant differs (R245). -/
theorem entryAnomaly_getLsbD (p : List Byte) (e : Entry) (i : Nat) (hi : i < 45) :
    (entryAnomaly p e).getLsbD i = true ↔ e.byte = i ∧ ∃ v, e.kind = .const v ∧ fieldOf e p ≠ v := by
  unfold entryAnomaly
  cases hk : e.kind with
  | const v =>
    by_cases hf : fieldOf e p = v
    · simp [hf]
    · simp [hf, hi]
      omega
  | _ => simp

end Sys2Proof.Machine
end

