-- ==== Sys2Proof/Machine/HostProgram.lean ====
section
/-! DEFINITION. The host-program notation of 30_encoding.md R122 and R123: the pseudo-instructions and the host
accesses they expand to, and the ticks of a program. A program is the host's, outside the block; WAITDONE repeats a
read until its answer has DONE = 1, so its number of ticks is no constant, and `waitDone n` is `n` such reads.
Also the source's typed results as the host reads them after a completion (43_host_ops.md R288). -/

namespace Sys2Proof.Machine

/-- The lines of a host program (R122, R123). -/
inductive HostLine where
  | wr (addr : BitVec 12) (v : Word)
  | rd (addr : BitVec 12)
  | idle (n : Nat)
  | waitDone (n : Nat)
  | nop
  | listen
  | send (k : Cmd)
  | receive (k : Cmd)
  | ackDone
  | setTmo (n : Word)
  | setTiming (tbit tack thalf tackhold : BitVec 16)
deriving DecidableEq, Repr

/-- The byte offsets of the registers that the pseudo-instructions access (10_state.md R32). -/
def cmdOffset : BitVec 12 := 0x004#12

/-- STATUS (R32). -/
def statusOffset : BitVec 12 := 0x008#12

/-- TMO (R32). -/
def tmoOffset : BitVec 12 := 0x010#12

/-- TIMING0 (R32). -/
def timing0Offset : BitVec 12 := 0x014#12

/-- TIMING1 (R32). -/
def timing1Offset : BitVec 12 := 0x018#12

/-- The host accesses of a line, one per tick (R123). -/
def HostLine.expand : HostLine → List HostAccess
  | .wr a v => [.write a v]
  | .rd a => [.read a]
  | .idle n => List.replicate n .idle
  | .waitDone n => List.replicate n (.read statusOffset)
  | .nop => [.write cmdOffset 0]
  | .listen => [.write cmdOffset 1]
  | .send k => [.write cmdOffset (0#20 ++ k.index ++ 2#8)]
  | .receive k => [.write cmdOffset (0#20 ++ k.index ++ 3#8)]
  | .ackDone => [.write statusOffset 2]
  | .setTmo n => [.write tmoOffset n]
  | .setTiming tbit tack thalf tackhold =>
    [.write timing0Offset (tack ++ tbit), .write timing1Offset (tackhold ++ thalf)]

/-- The ticks of a host program against a peer that pulls the same lines in every tick. -/
def programInputs (peer : Lines) (p : List HostLine) : List TickInput :=
  (p.flatMap HostLine.expand).map fun h => ⟨false, h, peer⟩

/-- The state whose coming ticks are a host program's. -/
def State.withProgram (s : State) (peer : Lines) (p : List HostLine) : State :=
  { s with inputs := programInputs peer p ++ s.inputs }

/-- The source's typed message as the host reads it after a completion (43_host_ops.md R288). -/
structure Message where
  command : Cmd
  fields : List Byte
  payload : List Byte
  anomaly : Bool
  anomalyBits : Word × Word
deriving DecidableEq, Repr

/-- The source's typed results (R288). -/
inductive TypedResult where
  | message (m : Message)
  | sent
  | error (err : BitVec 4) (code : Byte)
deriving DecidableEq, Repr

/-- The message in FIELD, FBUF and the anomaly registers, of the command that RESULT.CMDIDX names (R288). -/
def State.message (s : State) (k : Cmd) : Message where
  command := k
  fields := (List.range (s.cfg.layout k).length).map s.field
  payload := (List.range k.len).map fun j => s.fbuf (j + 1)
  anomaly := s.result.getLsbD 4
  anomalyBits := (s.anom0, s.anom1)

/-- The typed result of the operation `o` that has completed last (R288). An OK completion always names its command
(60_exceptions.md R316), so the last case is none of a completed operation's. -/
def State.typedResult (s : State) (o : Op) : TypedResult :=
  if s.result.extractLsb' 0 4 ≠ 0 then .error (s.result.extractLsb' 0 4) (s.result.extractLsb' 8 8)
  else if o = .send then .sent
  else
    match Cmd.ofIndex (s.result.extractLsb' 16 4) with
    | some k => .message (s.message k)
    | none => .error 0 (s.result.extractLsb' 8 8)

end Sys2Proof.Machine
end

