-- ==== Sys2Proof/Tests/Slice0.lean ====
section
/-! SUPPORT. The model's own tests: the well-formedness checks refuse what they should, every row's word or frame
decodes (words written out from 30_encoding.md R110 and R114, in the configuration EX of 95_test_vectors.md), one or
two steps of each instruction, and for every obligation with hypotheses a concrete case that meets them. -/

namespace Sys2Proof.Tests

open Sys2Proof.Machine

-- One theorem at a time: each waiting kernel evaluation would otherwise hold a thread of its own.
set_option Elab.async false

/-- The next state of an outcome. -/
def out (r : Result) : Option State :=
  match r with
  | .next t => some t
  | .fault _ => none
  | .refused _ => none

/-- The instruction of a decoding. -/
def got (r : Except Reject Instr) : Option Instr := r.toOption

/-! ## Well-formedness refuses -/

theorem test_wf_send_reserved_sel : Instr.wf (.send 0 12 0) = false := by decide
theorem test_wf_receive_reserved_sel : Instr.wf (.receive 0 12 0) = false := by decide
theorem test_wf_send_last_sel : Instr.wf (.send 0 11 0) = true := by decide

/-- Every wire row refuses a payload of one byte too many and one too few. -/
theorem test_wf_payload_length :
    (Cmd.all.all fun k =>
      !(frameInstr k (List.replicate (k.len + 1) 0) 0).wf && !(frameInstr k (List.replicate (k.len - 1) 0) 0).wf &&
        (frameInstr k (List.replicate k.len 0) 0).wf) = true := by decide

theorem test_wf_flag_width : Kind.wf 2 0 .flag = false := by decide
theorem test_wf_const_too_large : Kind.wf 1 0 (.const 2) = false := by decide
theorem test_wf_scaled_width : Kind.wf 7 0 (.scaled .power) = false := by decide
theorem test_wf_scaled_lo : Kind.wf 8 1 (.scaled .power) = false := by decide
theorem test_wf_entry_byte : Entry.wf 2 ⟨"x", 2, 0, 1, .flag⟩ = false := by decide
theorem test_wf_entry_lo : Entry.wf 2 ⟨"x", 1, 8, 1, .flag⟩ = false := by decide
theorem test_wf_entry_no_width : Entry.wf 2 ⟨"x", 1, 0, 0, .opaqueBits⟩ = false := by decide
theorem test_wf_entry_past_the_byte : Entry.wf 2 ⟨"x", 1, 4, 5, .opaqueBits⟩ = false := by decide
theorem test_wf_entry_kind : Entry.wf 2 ⟨"x", 1, 4, 2, .flag⟩ = false := by decide

theorem test_wf_layout_overlap :
    layoutWf 2 [⟨"x", 0, 0, 4, .opaqueBits⟩, ⟨"y", 0, 3, 1, .flag⟩] = false := by decide

theorem test_wf_layout_too_long :
    layoutWf 45 ((List.range 65).map fun j => ⟨"x", j / 8, j % 8, 1, .flag⟩) = false := by decide +kernel

theorem test_wf_config_at_reset : Config.atReset.wf = true := by decide +kernel
theorem test_wf_code_twice : { Config.atReset with codeInit1 := 0x10 }.wf = false := by decide +kernel
theorem test_wf_code_is_postflash : { Config.atReset with codeInit1 := 0xC0 }.wf = false := by decide +kernel
theorem test_wf_code_is_af : { Config.atReset with codePreflash2 := 0xD1 }.wf = false := by decide +kernel

/-- The configuration at reset with another layout for the command of index `k`. -/
def withLayout (k : Fin 12) (es : List Entry) : Config :=
  { Config.atReset with layouts := Config.atReset.layouts.set k es }

theorem test_wf_config_layout : (withLayout 8 [⟨"x", 1, 0, 1, .flag⟩]).wf = false := by decide +kernel
theorem test_wf_enable_missing : (withLayout 7 []).wf = false := by decide +kernel
theorem test_wf_enable_not_first :
    (withLayout 7 [⟨"x", 1, 0, 1, .flag⟩, enableEntry]).wf = false := by decide +kernel
theorem test_wf_iso_missing : (withLayout 4 []).wf = false := by decide +kernel
theorem test_wf_iso_twice : (withLayout 4 [isoEntry 0, isoEntry 1]).wf = false := by decide +kernel
theorem test_wf_iso_pos : { withLayout 4 [isoEntry 13] with isoPos := 14 }.wf = false := by decide +kernel

/-! ## Decoding

CMD words bit by bit: ignored [31:12], CMDSEL [11:8], ignored [7:3], OP [2:0]. -/

theorem test_decode_nop :
    decodeCmd 0b00010010001101000101000000000000#32 = .nop 0 0 0x12345 := by decide
theorem test_decode_listen :
    decodeCmd 0b11111111111111111111000011111001#32 = .listen 0x1F 0 0xFFFFF := by decide
theorem test_decode_send :
    decodeCmd 0b00000000000000000000011100000010#32 = .send 0 7 0 := by decide
theorem test_decode_receive :
    decodeCmd 0b00000000000000000000101100001011#32 = .receive 1 11 0 := by decide
theorem test_decode_op4 :
    decodeCmd 0b00000000000000000001001010000100#32 = .reservedOp4 0x10 2 1 := by decide
theorem test_decode_op5 :
    decodeCmd 0b10000000000000000000110000000101#32 = .reservedOp5 0 12 0x80000 := by decide
theorem test_decode_op6 :
    decodeCmd 0b00000000000000000000000000000110#32 = .reservedOp6 0 0 0 := by decide
theorem test_decode_op7 :
    decodeCmd 0b00000000000000000000000000000111#32 = .reservedOp7 0 0 0 := by decide
theorem test_decode_send_reserved_cmdsel :
    decodeCmd 0b00000000000000000000110000000010#32 = .sendReservedCmdsel 0 0 0 := by decide
theorem test_decode_receive_reserved_cmdsel :
    decodeCmd 0b00000000000000000000111100000011#32 = .receiveReservedCmdsel 0 3 0 := by decide

/-! Frames byte by byte: command, payload, checksum. -/

/-- The decoder in a LISTEN with CTRL.PF_SEL = `pf`, in the configuration EX. -/
def heard (pf : Bool) (bytes : List Byte) : Option Instr := got (decodeFrame Config.atReset .listen 0 pf bytes)

theorem test_decode_init0 :
    heard false [0x10, 1, 2, 3, 4, 5, 6, 7, 8, 9, 10, 11, 12, 13, 14, 15, 16, 17, 0xA9] =
      some (.init0 [1, 2, 3, 4, 5, 6, 7, 8, 9, 10, 11, 12, 13, 14, 15, 16, 17] 0xA9) := by decide
theorem test_decode_init1 :
    heard false [0x11, 1, 2, 3, 4, 5, 6, 7, 8, 9, 0x3E] = some (.init1 [1, 2, 3, 4, 5, 6, 7, 8, 9] 0x3E) := by decide
theorem test_decode_init2 :
    heard false (0x12 :: List.replicate 45 0 ++ [0x12]) = some (.init2 (List.replicate 45 0) 0x12) := by decide
theorem test_decode_flash_setting :
    heard false ([0x20, 0xFF] ++ List.replicate 16 0 ++ [0x1F]) =
      some (.flashSetting (0xFF :: List.replicate 16 0) 0x1F) := by decide
theorem test_decode_cam_setting :
    heard false ([0x21, 0x1E] ++ List.replicate 13 0 ++ [0x3F]) =
      some (.camSetting (0x1E :: List.replicate 13 0) 0x3F) := by decide
theorem test_decode_postflash1 : heard false [0xC0, 0x05, 0xC5] = some (.postflash1 [0x05] 0xC5) := by decide
theorem test_decode_postflash2 :
    heard true [0xC0, 0x01, 0x02, 0xC3] = some (.postflash2 [0x01, 0x02] 0xC3) := by decide
theorem test_decode_af_illumination :
    heard false [0xD1, 0x01, 0x00, 0xD2] = some (.afIllumination [0x01, 0x00] 0xD2) := by decide
theorem test_decode_red_eye_reduction :
    heard false [0x30, 0xF0, 0x20] = some (.redEyeReduction [0xF0] 0x20) := by decide
theorem test_decode_modelling_light :
    heard false [0x31, 0x81, 0xB2] = some (.modellingLight [0x81] 0xB2) := by decide
theorem test_decode_preflash1 : heard false [0x40, 0x00, 0x40] = some (.preflash1 [0x00] 0x40) := by decide
theorem test_decode_preflash2 : heard false [0x41, 0x01, 0x42] = some (.preflash2 [0x01] 0x42) := by decide

theorem test_decode_unknown_command : heard false [0x99, 0x00, 0x99] = none := by decide
theorem test_decode_wrong_length : heard false [0xC0, 0x01, 0x02, 0xC3] = none := by decide

/-! ## One step of each instruction -/

/-- A block with a session of operation `o` in role `r`. -/
def busyBlock (o : Op) (r : Role) : State := { State.reset with busy := true, op := o, role := r }

/-- A block with its timing profile TP (95_test_vectors.md section 0) and FIELD[0] = 1. -/
def ready : State :=
  { State.reset with tmo := 200, timing0 := 0x00040008, timing1 := 0x00020002, mem := [(0x100, 1)] }

-- 95_test_vectors.md section 2.2; R283: NOP while busy.
theorem test_nop : out (exec (.nop 0 15 0) (busyBlock .listen .observer)) =
    some (busyBlock .listen .observer) := by decide
theorem test_listen : (out (exec (.listen 0 15 0) State.reset)).map (fun t => t.statusWord) = some 1 := by decide
theorem test_listen_busy :
    (out (exec (.listen 0 0 0) (busyBlock .listen .observer))).map (fun t => (t.rej, t.statusWord)) =
      some (true, 5) := by decide
theorem test_op4 : (out (exec (.reservedOp4 0 0 0) State.reset)).map (fun t => t.statusWord) = some 4 := by decide
theorem test_op5 : (out (exec (.reservedOp5 0 0 0) State.reset)).map (fun t => t.statusWord) = some 4 := by decide
theorem test_op6 : (out (exec (.reservedOp6 0 0 0) State.reset)).map (fun t => t.statusWord) = some 4 := by decide
theorem test_op7 : (out (exec (.reservedOp7 0 0 0) State.reset)).map (fun t => t.statusWord) = some 4 := by decide
theorem test_send_reserved :
    (out (exec (.sendReservedCmdsel 0 0 0) State.reset)).map (fun t => t.statusWord) = some 4 := by decide
theorem test_receive_reserved :
    (out (exec (.receiveReservedCmdsel 0 3 0) State.reset)).map (fun t => t.statusWord) = some 4 := by decide

-- V-HS-4a: FBUF word 0x040 = 0xD20001D1 after SEND AF_Illumination with FIELD[0] = 1.
theorem test_send :
    (out (exec (.send 0 7 0) ready)).map (fun t => (t.hostRead 0x040, t.role, t.latched.tack, t.flen)) =
      some (0xD20001D1, .sender, 4, 4) := by decide +kernel
theorem test_receive :
    (out (exec (.receive 0 1 0) ready)).map (fun t => (t.role, t.latched.tbit, t.latched.sel, t.flen)) =
      some (.receiver, 8, 1, 0) := by decide

/-- A LISTEN session of a block in the configuration `c`. -/
def listening (c : Config) : State := { busyBlock .listen .observer with cfg := c }

/-- A RECEIVE session that expects the command of index `sel`. -/
def awaiting (sel : BitVec 4) : State :=
  { busyBlock .receive .receiver with latched := { Latched.reset with sel := sel } }

/-- RESULT, FBUF word 0 and FIELD word 0 after an instruction. -/
def seen (i : Instr) (s : State) : Option (Word × Word × Word) :=
  (out (exec i s)).map fun t => (t.result, t.hostRead 0x040, t.hostRead 0x100)

-- X1: Enable true and false. R316: NBYTES 4, CMDIDX 7, CODE 0xD1.
theorem test_af_illumination_on : seen (.afIllumination [1, 0] 0xD2) (listening Config.atReset) =
    some (0x0407D100, 0xD20001D1, 1) := by decide +kernel
theorem test_af_illumination_off : seen (.afIllumination [0, 0] 0xD1) (listening Config.atReset) =
    some (0x0407D100, 0xD10000D1, 0) := by decide +kernel
-- X2: ISO byte 30.
theorem test_cam_setting :
    seen (.camSetting (0x1E :: List.replicate 13 0) 0x3F) (listening Config.atReset) =
      some (0x10042100, 0x00001E21, 30) := by decide +kernel
-- V-HS-1: AMBIG of a received 0xC0. R211: a RECEIVE of 6 takes Postflash_2.
theorem test_postflash1 : seen (.postflash1 [0x5A] 0x1A) (awaiting 5) =
    some (0x0305C020, 0x001A5AC0, 0) := by decide +kernel
theorem test_postflash2 : seen (.postflash2 [1, 2] 0xC3) (awaiting 6) =
    some (0x0406C020, 0xC30201C0, 0) := by decide +kernel
-- R286's example: UnexpectedCommand; R210: ChecksumMismatch.
theorem test_red_eye_reduction_unexpected : seen (.redEyeReduction [0xF0] 0x20) (awaiting 1) =
    some (0x03083005, 0x0020F030, 0) := by decide +kernel
theorem test_preflash1_checksum : seen (.preflash1 [0] 0x41) (awaiting 1) =
    some (0x030A4003, 0x00410040, 0) := by decide +kernel
theorem test_preflash2 : seen (.preflash2 [1] 0x42) (awaiting 11) =
    some (0x030B4100, 0x00420141, 0) := by decide +kernel
theorem test_init0 : seen (.init0 (List.replicate 17 0) 0x10) (awaiting 0) =
    some (0x13001000, 0x00000010, 0) := by decide +kernel
theorem test_init1 : seen (.init1 (List.replicate 9 1) 0x1A) (awaiting 1) =
    some (0x0B011100, 0x01010111, 0) := by decide +kernel
theorem test_init2 : seen (.init2 (List.replicate 45 0) 0x12) (awaiting 2) =
    some (0x2F021200, 0x00000012, 0) := by decide +kernel
theorem test_flash_setting : seen (.flashSetting (List.replicate 17 0) 0x20) (awaiting 3) =
    some (0x13032000, 0x00000020, 0) := by decide +kernel

/-- V-CAT-8: Modelling_Light with a flag and a constant bit. -/
def constCfg : Config := withLayout 9 [⟨"M", 0, 0, 1, .flag⟩, ⟨"K", 0, 7, 1, .const 0⟩]

theorem test_modelling_light_anomaly :
    (out (exec (.modellingLight [0x81] 0xB2) (listening constCfg))).map
      (fun t => (t.result, t.anom0, t.hostRead 0x100)) = some (0x03093110, 1, 0x00000101) := by decide +kernel

/-! ## Decoding and running a table word -/

theorem test_fetch_send :
    (out (step (State.reset.withFetchWord 32 0x00000702))).map (fun t => (t.op, t.latched.sel)) =
      some (.send, 7) := by decide +kernel
theorem test_fetch_frame :
    (out (step (State.reset.withFetchWord 8 0xD1))).map (fun t => t.result) = some 0x0407D103 := by decide +kernel

/-! ## Host accesses (V-MEM) -/

/-- What the host reads at `r` after it wrote `v` at `a`, from the state after reset. -/
def wroteThenRead (a : BitVec 12) (v : Word) (r : BitVec 12) : Word :=
  (State.reset.writeWord (wordIndex a) v).hostRead r

theorem test_vmem1 : wroteThenRead 0x080 0x44332211 0x080 = 0x44332211 := by decide +kernel
theorem test_vmem2 : wroteThenRead 0x0AC 0xDDCCBBAA 0x0AC = 0x000000AA := by decide +kernel
theorem test_vmem3 : wroteThenRead 0x083 0x01020304 0x080 = 0x01020304 := by decide +kernel
theorem test_vmem4 : wroteThenRead 0x000 0xFFFFFFFF 0x000 = 3 := by decide +kernel
theorem test_vmem8 : State.reset.hostRead 0x024 = 0x0000000F := by decide +kernel
theorem test_vmem9 : wroteThenRead 0x100 0x00000101 0x100 = 0x00000101 := by decide +kernel

/-! ## Host programs (30_encoding.md R123; the profile TP and the words of 95_test_vectors.md section 2.2) -/

theorem test_expand_send : (HostLine.send .afIllumination).expand = [.write 0x004 0x00000702] := by decide
theorem test_expand_timing :
    (HostLine.setTiming 8 4 2 2).expand = [.write 0x014 0x00040008, .write 0x018 0x00020002] := by decide

-- X1: AF_Illumination with Enable, as a typed message (R288).
theorem test_typed_result :
    (out (exec (.afIllumination [1, 0] 0xD2) (listening Config.atReset))).map (fun t => t.typedResult .listen) =
      some (.message ⟨.afIllumination, [1], [1, 0], false, (0, 0)⟩) := by decide +kernel

/-! ## The timing conditions of R354 (V-HS-2, V-HS-3) -/

/-- The latched values of a timing profile. -/
def profile (tbit tack thalf tackhold : BitVec 16) : Latched :=
  { Latched.reset with tbit := tbit, tack := tack, thalf := thalf, tackhold := tackhold }

theorem test_compatible_profiles :
    ([profile 8 4 2 2, profile 3 2 1 1].all fun p => linkCompatible p p (some p)) = true ∧
      linkCompatible (profile 4 2 2 1) (profile 4 2 2 1) none = true := by decide

theorem test_incompatible_profiles :
    linkCompatible (profile 3 2 2 1) (profile 3 2 2 1) none = false ∧
      receiverKeepsUp (profile 3 2 2 1) (profile 3 2 2 1) = false ∧
      senderWaitsEnough (profile 8 1 2 2) (profile 8 1 2 2) = false ∧
      observerKeepsUp (profile 3 2 1 1) (profile 3 2 1 1) (profile 2 2 1 1) = false := by decide

/-! ## The formulas (X2, X3) -/

theorem test_iso_30 : isoValue 30 = 100 := by
  simp [isoValue, pow2]

theorem test_iso_36 : isoValue 36 = 200 := by
  simp [isoValue, pow2]
  norm_num

theorem test_exposure_bulb : exposureTime 128 = .bulb := by
  simp [exposureTime]

/-! ## Witnesses: for each obligation with hypotheses, a case that meets them all -/

theorem witness_DecodeOfEncodeIsTheInstruction :
    Config.atReset.wf = true ∧ (Instr.postflash2 [1, 2] 0xC3).wf = true ∧
      postflashSelect .receive 6 false = .postflash2 ∧ (Instr.postflash1 [5] 0xC5).wf = true ∧
      postflashSelect .listen 6 false = .postflash1 ∧ (Instr.send 0x1F 11 0xFFFFF).wf = true ∧
      (Instr.init2 (List.replicate 45 0xFF) 0).wf = true := by decide +kernel

theorem witness_EncodeOfTheDecodedIsTheEncoded :
    decode Config.atReset .listen 0 true (.frame [0xC0, 1, 2, 0xC3]) = .ok (.postflash2 [1, 2] 0xC3) := rfl

theorem witness_IgnoredCmdBitsDoNotMatter :
    (0xFFFFF702#32 ||| 0xF8).extractLsb' 0 3 = (0x00000702#32).extractLsb' 0 3 ∧
      (0xFFFFF702#32 ||| 0xF8).extractLsb' 8 4 = (0x00000702#32).extractLsb' 8 4 := by decide

theorem witness_LookupOfCommandByte :
    Config.atReset.wf = true ∧ (∀ k, Config.atReset.code k ≠ 0x99#8) ∧
      lookup Config.atReset .receive 6 false 0xC0 = some .postflash2 ∧
      lookup Config.atReset .receive 5 true 0xC0 = some .postflash1 ∧
      lookup Config.atReset .receive 4 true 0xC0 = some .postflash2 :=
  ⟨by decide +kernel, fun k => by cases k <;> decide, by decide, by decide, by decide⟩

theorem witness_ListenOpensAnObserverSession : State.reset.busy = false := rfl

theorem witness_ReceiveOpensAReceiverSession :
    ready.busy = false ∧ (0#4).toNat < 12 ∧ (11#4).toNat < 12 := by decide

theorem witness_SendOpensASenderSessionWithItsFrame :
    ready.busy = false ∧ 0#4 = Cmd.index .init0 ∧ 11#4 = Cmd.index .preflash2 := by decide

theorem witness_RejectedIssueSetsOnlyRej :
    12 ≤ (12#4).toNat ∧ 12 ≤ (15#4).toNat ∧ (listening Config.atReset).busy = true := by decide

/-- In a LISTEN every command's frame of zero bytes with its right checksum is delivered, in a RECEIVE that of the
command it expects. -/
theorem witness_ReceivedFrameIsDelivered :
    (Cmd.all.all fun k =>
      (listening Config.atReset).receiving && (awaiting k.index).receiving &&
        decide ((List.replicate k.len (0 : Byte)).length = k.len) &&
        decide (Config.atReset.checksum (Config.atReset.code k :: List.replicate k.len 0) = Config.atReset.code k) &&
        decide ((awaiting k.index).latched.sel = k.index)) = true := by decide +kernel

theorem witness_InvalidFrameIsReportedAndDiscarded :
    (awaiting 1).receiving = true ∧ Config.atReset.checksum [0x40, 0] ≠ 0x41 ∧ [(0 : Byte)].length = Cmd.len .preflash1 ∧
      (awaiting 1).op = .receive ∧ (awaiting 1).latched.sel ≠ Cmd.index .preflash1 := by decide +kernel

theorem witness_FrameOutsideAReceiveHasNoEffect :
    State.reset.receiving = false ∧ (busyBlock .send .sender).receiving = false := by decide

theorem witness_SentFrameIsReceivedWhole :
    ready.cfg.wf = true ∧ ready.busy = false ∧ (listening Config.atReset).cfg = ready.cfg ∧
      (listening Config.atReset).busy = true ∧ (listening Config.atReset).op = .listen ∧
      (listening Config.atReset).latched.pf = false ∧
      ({ listening Config.atReset with latched := { Latched.reset with pf := true } } : State).latched.pf = true := by
  decide +kernel

/-- The first and last byte of each word, and the five values of HS as STATUS reads them. -/
theorem witness_StatusAndLinesWordFields :
    (0x008#12).toNat / 4 = 2 ∧ (0x00B#12).toNat / 4 = 2 ∧ (0x024#12).toNat / 4 = 9 ∧ (0x027#12).toNat / 4 = 9 ∧
      [HS.idle, .start, .bit, .ack, .timedOut].map (fun h => ({ State.reset with hs := h } : State).hostRead 0x008) =
        [0x00, 0x10, 0x20, 0x30, 0x40] := by decide +kernel

/-- The first and last byte of each register's word. -/
theorem witness_RegisterWordsAsTheHostReadsThem :
    (0x000#12).toNat / 4 = 0x000 / 4 ∧ (0x003#12).toNat / 4 = 0x000 / 4 ∧ (0x004#12).toNat / 4 = 0x004 / 4 ∧
      (0x007#12).toNat / 4 = 0x004 / 4 ∧ (0x00C#12).toNat / 4 = 0x00C / 4 ∧ (0x00F#12).toNat / 4 = 0x00C / 4 ∧
      (0x010#12).toNat / 4 = 0x010 / 4 ∧ (0x013#12).toNat / 4 = 0x010 / 4 ∧ (0x014#12).toNat / 4 = 0x014 / 4 ∧
      (0x017#12).toNat / 4 = 0x014 / 4 ∧ (0x018#12).toNat / 4 = 0x018 / 4 ∧ (0x01B#12).toNat / 4 = 0x018 / 4 ∧
      (0x01C#12).toNat / 4 = 0x01C / 4 ∧ (0x01F#12).toNat / 4 = 0x01C / 4 ∧ (0x020#12).toNat / 4 = 0x020 / 4 ∧
      (0x023#12).toNat / 4 = 0x020 / 4 := by decide

/-- Byte addresses beside CMD's word, the edges of the two arrays and the last one, in an idle and in a busy block. -/
theorem witness_HostWriteStoresOnlyItsRegister :
    ([0x000#12, 0x003, 0x008, 0x010, 0x014, 0x018, 0x080, 0x0AC, 0x0AF, 0x100, 0x13F, 0xFFF].all fun addr =>
      decide (addr.toNat / 4 ≠ 1) &&
        [State.reset, busyBlock .listen .observer].all fun s =>
          s.cfg.wf && decide ((s.withInput ⟨false, .write addr 5, Lines.released⟩).inputs =
            ⟨false, .write addr 5, Lines.released⟩ :: [])) = true := by decide +kernel

/-- Bytes 0 and 45 to 47 of the 48-byte arrays, 0 and 63 of FIELD. -/
theorem witness_ByteArraysReadLittleEndian :
    (State.reset.writeWord 32 0x44332211).txpay 0 = 0x11 ∧ (State.reset.writeWord 43 0xDDCCBBAA).txpay 47 = 0 ∧
      (State.reset.writeWord 64 0x44332211).field 0 = 0x11 ∧
      (State.reset.writeWord 79 0x44332211).field 63 = 0x44 := by decide +kernel

/-- A tick that writes at each byte address in an idle block, then one that reads the same word: both are taken, and
the word read is the one written, cut to what the register keeps. -/
theorem witness_HostReadsBackWhatItWrote :
    [0x000#12, 0x010, 0x01B, 0x080, 0x0AB, 0x0AC, 0x0AF, 0x100, 0x13F].map (fun addr =>
      (out (step (State.reset.withInput ⟨false, .write addr 0xA50000FF, Lines.released⟩))).bind fun t =>
        (out (step (t.withInput ⟨false, .read addr, Lines.released⟩))).bind fun u =>
          if t.busy = State.reset.busy then u.hRdata else none) =
      [some 3, some 0xA50000FF, some 0xA50000FF, some 0xA50000FF, some 0xA50000FF, some 0xFF, some 0xFF,
        some 0xA50000FF, some 0xA50000FF] := by decide +kernel

theorem witness_ReservedAddressesReadZeroAndIgnoreWrites :
    ([0x028#12, 0x03F, 0x070, 0x07F, 0x0B0, 0x0FF, 0x140, 0xFFF].all fun addr => reservedWord (addr.toNat / 4)) = true ∧
      reservedWord ((0x024#12).toNat / 4) = false ∧
      (out (step (State.reset.withInput ⟨false, .idle, Lines.released⟩))).isSome = true := by decide +kernel

theorem witness_HostReadHasNoSideEffect :
    (out (step (State.reset.withInput ⟨false, .idle, Lines.released⟩))).isSome = true := by decide +kernel

theorem witness_ExtractTakesEachEntrysBits :
    layoutWf (Cmd.len .modellingLight) (constCfg.layout .modellingLight) = true ∧
      (constCfg.layout .modellingLight)[1]? = some ⟨"K", 0, 7, 1, .const 0⟩ ∧
      (constCfg.layout .modellingLight).length ≤ 2 := by decide +kernel

theorem witness_SerializeInsertsFieldsAndKeepsOpaqueBits :
    layoutWf (Cmd.len .modellingLight) (constCfg.layout .modellingLight) = true ∧
      [(0x7E : Byte)].length = Cmd.len .modellingLight ∧
      (constCfg.layout .modellingLight)[1]? = some ⟨"K", 0, 7, 1, .const 0⟩ ∧
      entryCovers ⟨"K", 0, 7, 1, .const 0⟩ 0 7 ∧
      ∀ e ∈ constCfg.layout .modellingLight, ¬ entryCovers e 0 6 :=
  ⟨by decide +kernel, rfl, by decide +kernel, by unfold entryCovers; decide, by
    unfold entryCovers
    decide +kernel⟩

theorem witness_SerializeOfExtractedFieldsIsThePayload :
    layoutWf (Cmd.len .modellingLight) (constCfg.layout .modellingLight) = true ∧
      [(0x81 : Byte)].length = Cmd.len .modellingLight := by decide +kernel

theorem witness_AnomalyBitmapMarksDifferingConstants :
    (44 : Nat) < 45 ∧ (anomaly constCfg .modellingLight [0x81]).getLsbD 0 = true := by decide +kernel

/-- A session in role `r` and handshake state `h`. -/
def place (r : Role) (h : HS) (p : Bool) : State := { busyBlock .none r with hs := h, ph := p }

/-- Each clause of the sender's waits: the condition holds, the bound is reached, the wait goes on. -/
theorem witness_SenderWaitsForAnIdleBus :
    (place .sender .idle false).role = .sender ∧ (place .sender .idle false).hs = .idle ∧
      (out (handshake Lines.idle (place .sender .idle false))).map (·.hs) = some .start ∧
      (out (handshake { Lines.idle with ack := false } (place .sender .idle false))).map (·.hs) = some .timedOut ∧
      (out (handshake { Lines.idle with ack := false }
        { place .sender .idle false with latched := { Latched.reset with tmo := 2 } })).map (·.cnt) = some 1 := by
  decide +kernel

theorem witness_SenderSetsUpTheFirstByte :
    (place .sender .start false).role = .sender ∧ (place .sender .start false).hs = .start := by decide

theorem witness_SenderDrivesABitCell :
    (place .sender .bit true).role = .sender ∧ (place .sender .bit true).hs = .bit ∧
      (out (handshake Lines.idle { place .sender .bit true with bitn := 7 })).map (·.hs) = some .ack ∧
      (out (handshake Lines.idle { place .sender .bit true with bitn := 6 })).map (·.bitn) = some 7 := by
  decide +kernel

theorem witness_SenderWaitsForTheAcknowledge :
    (place .sender .ack true).role = .sender ∧ (place .sender .ack true).hs = .ack ∧
      (out (handshake Lines.idle { place .sender .ack true with flen := 3, offset := 2 })).map (·.done) = some true ∧
      (out (handshake Lines.idle { place .sender .ack true with flen := 3, offset := 1 })).map (·.hs) =
        some .bit := by decide +kernel

theorem witness_ReceiverAwaitsTheFallOfSync :
    (place .receiver .idle false).role = .receiver ∧ (place .observer .idle false).role = .observer ∧
      (place .receiver .idle false).hs = .idle ∧ (place .receiver .idle false).prev.sync = true := by decide

theorem witness_ReceiverSamplesAtTheFallOfClock :
    (place .receiver .start false).role = .receiver ∧ (place .receiver .start false).hs = .start ∧
      (place .observer .bit false).role = .observer ∧ (place .observer .bit false).hs = .bit ∧
      (out (handshake { Lines.idle with clock := false } { place .observer .bit false with bitn := 7 })).map (·.hs) =
        some .ack := by decide +kernel

theorem witness_EightSamplesAssembleTheByte :
    (place .receiver .bit false).hs = .bit ∧ (place .receiver .bit false).bitn = 0 ∧
      (place .observer .start false).hs = .start ∧ (place .observer .start false).bitn = 0 := by decide

theorem witness_ReceiverAcknowledgesEachByte :
    (place .receiver .ack true).role = .receiver ∧ (place .receiver .ack true).hs = .ack := by decide

theorem witness_ObserverWatchesTheAcknowledge :
    (place .observer .ack true).role = .observer ∧ (place .observer .ack true).hs = .ack := by decide

/-- An unknown command byte (0), a known one, and a later byte that is not the last. -/
theorem witness_ByteDoneLooksUpTheCommandOrGoesOn :
    (place .observer .ack true).offset = 0 ∧
      lookup Config.atReset .none 0 false ((place .observer .ack true).shadow.read 0) = none ∧
      lookup Config.atReset .none 0 false
        (({ place .observer .ack true with shadow := [(0, 0xD1)] } : State).shadow.read 0) = some .afIllumination ∧
      (1#6 ≠ 0 ∧ 1#6 + 1 ≠ 3#6) := by decide +kernel

theorem witness_StepRunsTheCmdWordsInstruction :
    (State.reset.withCmd 0x702).cfg.wf = true ∧ (0x004#12).extractLsb' 2 10 = 1 ∧ (0x007#12).extractLsb' 2 10 = 1 ∧
      (State.reset.withCmd 0x702).inputs = ⟨false, .write 0x004#12 0x702, Lines.released⟩ :: [] := by decide +kernel

/-- A LISTEN session in the last acknowledge of the frame of X1. -/
def lastAck : State := State.reset.withFrame .afIllumination [0xD1, 0x01, 0x00, 0xD2]

theorem witness_StepRunsTheReceivedFramesInstruction :
    lastAck.cfg.wf = true ∧ lastAck.inputs = ⟨false, .idle, Lines.released⟩ :: [] ∧
      lastAck.AtFrameEnd (resolveLines lastAck.oe Lines.released) ∧
      lastAck.receivedInstr = .ok (.afIllumination [0x01, 0x00] 0xD2) :=
  ⟨by decide +kernel, rfl, ⟨rfl, rfl, rfl, Or.inl ⟨rfl, rfl⟩, by decide, by decide⟩, rfl⟩

theorem witness_ResetTickResetsEveryElement :
    lastAck.cfg.wf = true ∧
      ({ lastAck with inputs := [⟨true, .write 0x010#12 5, Lines.idle⟩] } : State).inputs =
        ⟨true, .write 0x010#12 5, Lines.idle⟩ :: [] := by decide +kernel

theorem witness_RestingBlockOnlySamplesItsLines :
    State.reset.cfg.wf = true ∧ State.reset.busy = false ∧
      (State.reset.withInput ⟨false, .idle, Lines.idle⟩).inputs = ⟨false, .idle, Lines.idle⟩ :: [] := by
  decide +kernel

theorem witness_ConfigurationIsCheckedAndKept :
    (out (step (State.reset.withInput ⟨false, .idle, Lines.idle⟩))).isSome = true ∧
      (withLayout 7 []).wf = false ∧ Config.atReset.wf = true ∧
      Config.atReset.code .postflash1 = Config.atReset.code .postflash2 := by decide +kernel

/-- The state after reset is a state of the invariant. -/
theorem reset_rests : State.reset.Resting := ⟨rfl, rfl, .inl rfl, rfl, rfl, rfl, rfl, rfl, rfl, rfl⟩

/-- A state of the invariant with a session: the last acknowledge of an observed frame. -/
theorem lastAck_inv : lastAck.Inv where
  mem_wf := by decide
  mem_cells := by decide
  shadow_wf := by decide
  shadow_cells := by decide
  result_reserved := by decide
  result_err := by decide
  anom_reserved := by decide
  rest := by intro h; exact absurd h (by decide)
  session := fun _ =>
    { done := rfl, hs := by decide, latched := by decide, cnt := by decide, oe := rfl
      role := .inr
        { op := .inr ⟨rfl, rfl⟩
          frame := .inr ⟨.afIllumination, rfl, rfl, by decide, by decide, by decide⟩
          first := by intro h; exact absurd h (by decide)
          phase := fun _ => rfl
          last := fun _ => rfl } }

/-- A SEND session that has just been issued. -/
def sending : State := (out (exec (.send 0 7 0) State.reset)).getD State.reset

/-- A LISTEN session that has just been issued. -/
def issued : State := (out (exec (.listen 0 0 0) State.reset)).getD State.reset

theorem sending_inv : sending.Inv where
  mem_wf := by decide +kernel
  mem_cells := by decide +kernel
  shadow_wf := by decide
  shadow_cells := by decide
  result_reserved := by decide
  result_err := by decide
  anom_reserved := by decide
  rest := by intro h; exact absurd h (by decide)
  session := fun _ =>
    { done := rfl, hs := by decide, latched := by decide, cnt := by decide, oe := rfl
      role := .inl ⟨rfl, .afIllumination,
        { op := rfl, cidx := rfl, sel := rfl, flen := rfl, offset := by decide
          first := fun _ => ⟨rfl, rfl, rfl⟩
          byte := by intro h; exact absurd h (by decide)
          last := by intro h; exact absurd h (by decide) }⟩ }

theorem issued_inv : issued.Inv where
  mem_wf := by decide
  mem_cells := by decide
  shadow_wf := by decide
  shadow_cells := by decide
  result_reserved := by decide
  result_err := by decide
  anom_reserved := by decide
  rest := by intro h; exact absurd h (by decide)
  session := fun _ =>
    { done := rfl, hs := by decide, latched := by decide, cnt := by decide, oe := rfl
      role := .inr
        { op := .inr ⟨rfl, rfl⟩
          frame := .inl ⟨rfl, rfl, rfl⟩
          first := fun _ => ⟨rfl, rfl⟩
          phase := by intro h; exact absurd h (by decide)
          last := by intro h; exact absurd h (by decide) } }

theorem witness_StepKeepsTheInvariant :
    lastAck.Inv ∧ (out (step lastAck)).isSome = true := ⟨lastAck_inv, by decide +kernel⟩

theorem witness_StepNeverStops : sending.Inv ∧ sending.cfg.wf = true := ⟨sending_inv, by decide +kernel⟩

theorem witness_ListenDrivesNoLine :
    lastAck.Inv ∧ lastAck.busy = true ∧ lastAck.op = .listen ∧ (out (step lastAck)).isSome = true :=
  ⟨lastAck_inv, rfl, rfl, by decide +kernel⟩

/-- An invariant state whose next tick is listed keeps its invariant: the inputs are no part of it. -/
theorem withInputs_inv (s : State) (l : List TickInput) (h : s.Inv) : ({ s with inputs := l } : State).Inv where
  mem_wf := h.mem_wf
  mem_cells := h.mem_cells
  shadow_wf := h.shadow_wf
  shadow_cells := h.shadow_cells
  result_reserved := h.result_reserved
  result_err := h.result_err
  anom_reserved := h.anom_reserved
  rest := fun b => let r := h.rest b; ⟨r.1, r.2, r.3, r.4, r.5, r.6, r.7, r.8, r.9, r.10⟩
  session := fun b =>
    let r := h.session b
    { done := r.done, hs := r.hs, latched := r.latched, cnt := r.cnt, oe := r.oe
      role := r.role.imp
        (fun ⟨e, k, q⟩ => ⟨e, k, ⟨q.1, q.2, q.3, q.4, q.5, q.6, q.7, q.8⟩⟩)
        fun q => ⟨q.1, q.2, q.3, q.4, q.5⟩ }

/-- A tick without reset, host access or pull. -/
def quiet : TickInput := ⟨false, .idle, Lines.released⟩

theorem witness_EverySessionTickUsesUpItsBudget :
    (sending.withInput quiet).Inv ∧ sending.busy = true ∧ (sending.withInput quiet).nextInput.rst = false ∧
      (out (step (sending.withInput quiet))).map (·.busy) = some true :=
  ⟨withInputs_inv _ _ sending_inv, by decide, rfl, by decide +kernel⟩

theorem witness_EverySessionEnds :
    ({ issued with inputs := List.replicate 500 quiet } : State).Inv ∧ issued.cfg.wf = true ∧ issued.busy = true ∧
      ({ issued with inputs := List.replicate 500 quiet } : State).ticksLeft ≤ 500 ∧
      500 ≤ (List.replicate 500 quiet).length ∧ ∀ i ∈ List.replicate 500 quiet, i.rst = false :=
  ⟨withInputs_inv _ _ issued_inv, by decide +kernel, rfl, by decide +kernel,
    by rw [List.length_replicate], by
    intro i hi
    rw [List.eq_of_mem_replicate hi]
    rfl⟩

/-- A receiving session in its wait for the start, with the inputs that bring the command byte 0xD1 in: Sync falls,
eight clock pulses, one acknowledge. -/
def hearing (o : Op) (r : Role) : State :=
  { issued with
    op := o, role := r, latched := { issued.latched with tbit := 2, tmo := 2, tack := 2 },
    inputs := [⟨false, .idle, ⟨true, false, false, false⟩⟩] ++
      ((List.range 8).flatMap fun i =>
        [⟨false, .idle, ⟨true, false, !(0xD1 : Byte).getLsbD (7 - i), true⟩⟩,
          ⟨false, .idle, ⟨true, false, false, false⟩⟩]) ++
      [⟨false, .idle, ⟨true, true, false, false⟩⟩, ⟨false, .idle, ⟨true, false, false, false⟩⟩] }

theorem hearing_inv (o : Op) (r : Role) (h : (o = .receive ∧ r = .receiver) ∨ (o = .listen ∧ r = .observer)) :
    (hearing o r).Inv := by
  rcases h with ⟨rfl, rfl⟩ | ⟨rfl, rfl⟩ <;>
    exact
      { issued_inv with
        rest := by intro h; exact absurd h (by decide)
        session := fun _ =>
          { done := rfl, hs := by decide, latched := by decide, cnt := by decide, oe := rfl
            role := .inr
              { op := by decide
                frame := .inl ⟨rfl, rfl, rfl⟩
                first := fun _ => ⟨rfl, rfl⟩
                phase := by intro h; exact absurd h (by decide)
                last := by intro h; exact absurd h (by decide) } } }

/-- The command is known in a SEND from its first tick on, and in a RECEIVE or a LISTEN after 19 ticks, with a session
in every one of them. -/
theorem witness_IssuedSessionBudget :
    (sending.Inv ∧ sending.busy = true ∧ sending.hs = .idle ∧ sending.role = .sender ∧
      (out (Host.Core.run core 0 sending)).map (·.cidx) = some (some .afIllumination)) ∧
      ((hearing .receive .receiver).Inv ∧ (hearing .listen .observer).Inv) ∧
      ∀ s ∈ [hearing .receive .receiver, hearing .listen .observer], s.busy = true ∧ s.hs = .idle ∧
        (∀ j, j < 20 → (out (Host.Core.run core j s)).map (·.busy) = some true) ∧
        (out (Host.Core.run core 19 s)).map (·.cidx) = some (some .afIllumination) :=
  ⟨⟨sending_inv, rfl, rfl, rfl, by decide +kernel⟩,
    ⟨hearing_inv _ _ (.inl ⟨rfl, rfl⟩), hearing_inv _ _ (.inr ⟨rfl, rfl⟩)⟩, by decide +kernel⟩

theorem witness_ListenTimesOutAfterExactlyTmo :
    issued.cfg.wf = true ∧ issued.busy = true ∧ issued.role = .observer ∧ issued.hs = .idle ∧ issued.cnt = 0 ∧
      issued.oe.sync = false ∧ 1 = issued.latched.tmo.toNat ∧
      1 ≤ ({ issued with inputs := [quiet] } : State).inputs.length ∧ quiet.rst = false ∧
      quiet.peer.sync = false := by decide +kernel

theorem witness_SessionDoesNotDependOnTheHostAccess :
    sending.busy = true ∧ (out (step (sending.withInput quiet))).isSome = true ∧
      (out (step (sending.withInput ⟨false, .write 0x004#12 1, Lines.released⟩))).isSome = true := by decide +kernel

theorem witness_CmdWriteWhileBusyChangesOnlyRej :
    lastAck.busy = true ∧ (0x004#12).extractLsb' 2 10 = 1 ∧
      (out (step (lastAck.withInput quiet))).map (·.busy) = some false := by decide +kernel

theorem witness_CompletionSetsDoneWhateverTheHostDoes :
    lastAck.busy = true ∧
      (out (step (lastAck.withInput ⟨false, .write 0x008#12 2, Lines.released⟩))).map (·.busy) = some false := by
  decide +kernel

theorem witness_DecodedFieldsWinOverAHostWrite :
    lastAck.Inv ∧ lastAck.busy = true ∧ lastAck.op ≠ .send ∧
      (out (step (lastAck.withInput quiet))).map (fun t => (t.busy, t.result.extractLsb' 0 4)) = some (false, 0) ∧
      (out (step (lastAck.withInput ⟨false, .write 0x100#12 0xFF, Lines.released⟩))).isSome = true :=
  ⟨lastAck_inv, rfl, by decide, by decide +kernel, by decide +kernel⟩

theorem witness_SharedLinesHaveOneLevel : sending ∈ [State.reset, sending] := by simp

/-- Positive values whose inverses lie from 0 to 255. -/
theorem witness_EncodedBytesAreWithinHalfAUnit :
    (0 : ℝ) < 1 ∧ powerInverse 1 = 0 ∧ exposureInverse 1 = 0 ∧ fstopInverse 1 = 0 ∧ distanceInverse 1 = 80 ∧
      (0 : ℝ) < 100 ∧ isoInverse 100 = 30 ∧ (0 : ℝ) < 8 ∧ focalInverse 8 = 83 / 5 := by
  have h8 : Real.logb 2 8 = 3 := by
    rw [show (8 : ℝ) = 2 ^ (3 : ℝ) by norm_num, Real.logb_rpow (by norm_num) (by norm_num)]
  refine ⟨by norm_num, ?_, ?_, ?_, ?_, by norm_num, ?_, by norm_num, ?_⟩
  · simp [powerInverse]
  · simp [exposureInverse]
  · simp [fstopInverse]
  · simp [distanceInverse]
  · simp [isoInverse]
  · rw [focalInverse, h8]
    norm_num

theorem witness_NoExposureTimeEncodesAsBulb : (0 : ℝ) < 1 / 250 := by norm_num

end Sys2Proof.Tests
end

section
/-! What an issue latches, and what keeps the configuration: the operand `eff`, the wire codes, and the
configuration through every tick (00_scope.md R5, R7; 10_state.md R63, R65). -/

namespace Sys2Proof.Machine

/-! The latched parameters -/

/-- `eff` is the maximum with 1, in every width that holds a 1 (00_scope.md R7). -/
theorem eff_toNat {n : Nat} (hn : 0 < n) (v : BitVec n) : (eff v).toNat = max v.toNat 1 := by
  unfold eff
  split
  · next h => simpa [h] using hn
  · next h =>
    have : v.toNat ≠ 0 := fun h0 => h (BitVec.eq_of_toNat_eq h0)
    omega

theorem lowHalf_toNat (w : Word) : (w.extractLsb' 0 16).toNat = w.toNat % 65536 := by
  rw [BitVec.extractLsb'_toNat, Nat.shiftRight_zero]

theorem highHalf_toNat (w : Word) : (w.extractLsb' 16 16).toNat = w.toNat / 65536 := by
  rw [BitVec.extractLsb'_toNat, Nat.shiftRight_eq_div_pow]
  have := w.isLt
  omega

/-- Settles O11: each latched value is `eff` of a register or of a half of one. -/
theorem latchedParameters : Obligations.LatchedParameters := by
  intro s sel
  refine ⟨eff_toNat (by decide) _, ?_, ?_, ?_, ?_, rfl, rfl⟩
  · rw [State.latch, eff_toNat (by decide), lowHalf_toNat]
  · rw [State.latch, eff_toNat (by decide), highHalf_toNat]
  · rw [State.latch, eff_toNat (by decide), lowHalf_toNat]
  · rw [State.latch, eff_toNat (by decide), highHalf_toNat]

/-! The wire codes -/

/-- The catalog lists every command. -/
theorem mem_cmdAll (k : Cmd) : k ∈ Cmd.all := by cases k <;> decide

/-- The place of a command's code in `Config.wireCodes`; the two Postflash commands share theirs. -/
def codePlace : Cmd → Fin 11
  | .init0 => 0
  | .init1 => 1
  | .init2 => 2
  | .flashSetting => 3
  | .camSetting => 4
  | .redEyeReduction => 5
  | .modellingLight => 6
  | .preflash1 => 7
  | .preflash2 => 8
  | .postflash1 => 9
  | .postflash2 => 9
  | .afIllumination => 10

theorem wireCodes_codePlace (c : Config) (k : Cmd) : c.wireCodes[codePlace k]'(codePlace k).isLt = c.code k := by
  cases k <;> rfl

theorem codePlace_eq {k k' : Cmd} (h : codePlace k = codePlace k') :
    k = k' ∨ ((k = .postflash1 ∨ k = .postflash2) ∧ (k' = .postflash1 ∨ k' = .postflash2)) := by
  have hall : ∀ k ∈ Cmd.all, ∀ k' ∈ Cmd.all, codePlace k = codePlace k' →
      k = k' ∨ ((k = .postflash1 ∨ k = .postflash2) ∧ (k' = .postflash1 ∨ k' = .postflash2)) := by decide
  exact hall k (mem_cmdAll k) k' (mem_cmdAll k') h

theorem code_of_postflash (c : Config) {k : Cmd} (h : k = .postflash1 ∨ k = .postflash2) :
    c.code k = postflashCode := by
  rcases h with rfl | rfl <;> rfl

/-- Under distinct codes, commands with one wire code have one place in the list of codes. -/
theorem codePlace_eq_of_code_eq {c : Config} (hc : c.wf = true) {k k' : Cmd} (h : c.code k = c.code k') :
    codePlace k = codePlace k' := by
  have hinj := List.Nodup.getElem_inj_iff (Config.codes_pairwise hc)
    (hi := (codePlace k).isLt) (hj := (codePlace k').isLt)
  exact Fin.ext (hinj.mp ((wireCodes_codePlace c k).trans (h.trans (wireCodes_codePlace c k').symm)))

/-! The configuration through a tick -/

/-- Every end of a received frame is a completion, with the byte arrays written (41_frame_codec.md R212). -/
theorem frameDone_eq_complete (k : Cmd) (p : List Byte) (ck : Byte) (s : State) :
    ∃ err anom m, frameDone k p ck s = complete err anom 1 (s.setMem m) := by
  rcases frameDone_cases k p ck s with ⟨-, e⟩ | ⟨-, -, -, e⟩ | ⟨-, -, e⟩ <;> exact ⟨_, _, _, e⟩

@[simp] theorem frameDone_cfg (k : Cmd) (p : List Byte) (ck : Byte) (s : State) :
    (frameDone k p ck s).cfg = s.cfg := by
  obtain ⟨err, anom, m, e⟩ := frameDone_eq_complete k p ck s
  simp [e]

@[simp] theorem frameDone_busy (k : Cmd) (p : List Byte) (ck : Byte) (s : State) :
    (frameDone k p ck s).busy = false := by
  obtain ⟨err, anom, m, e⟩ := frameDone_eq_complete k p ck s
  simp [e]

/-- All that a sample can do (40_handshake.md R162): the next cell of the byte, or its end. -/
theorem sample_cases (l : Lines) (s : State) :
    ((s.hs = .start ∨ s.bitn.toNat < 7) ∧ ∃ v, sample l s = (s.setShreg v).setPlace .bit (s.bitn + 1) s.ph) ∨
      (s.hs ≠ .start ∧ s.bitn = 7 ∧
        ∃ v, sample l s = ((s.setShreg v).setShadow (s.shadow.write s.offset.toNat v)).setPlace .ack s.bitn false) := by
  unfold sample
  by_cases h : s.hs = .start ∨ s.bitn.toNat < 7
  · exact .inl ⟨h, _, by rw [if_pos h]⟩
  · obtain ⟨hs, hb⟩ := not_or.mp h
    exact .inr ⟨hs, by bv_omega, _, by rw [if_neg h]⟩

@[simp] theorem sample_cfg (l : Lines) (s : State) : (sample l s).cfg = s.cfg := by
  rcases sample_cases l s with ⟨-, v, e⟩ | ⟨-, -, v, e⟩ <;> simp [e]

section acked

variable (s : State)

/-! The fields where the byte done runs: only the counter and Ack are new -/

@[simp] theorem State.acked_cnt : s.acked.cnt = 0 := by unfold State.acked; split <;> rfl
@[simp] theorem State.acked_busy : s.acked.busy = s.busy := by unfold State.acked; split <;> rfl
@[simp] theorem State.acked_op : s.acked.op = s.op := by unfold State.acked; split <;> rfl
@[simp] theorem State.acked_role : s.acked.role = s.role := by unfold State.acked; split <;> rfl
@[simp] theorem State.acked_offset : s.acked.offset = s.offset := by unfold State.acked; split <;> rfl
@[simp] theorem State.acked_flen : s.acked.flen = s.flen := by unfold State.acked; split <;> rfl
@[simp] theorem State.acked_cidx : s.acked.cidx = s.cidx := by unfold State.acked; split <;> rfl
@[simp] theorem State.acked_shadow : s.acked.shadow = s.shadow := by unfold State.acked; split <;> rfl
@[simp] theorem State.acked_latched : s.acked.latched = s.latched := by unfold State.acked; split <;> rfl
@[simp] theorem State.acked_cfg : s.acked.cfg = s.cfg := by unfold State.acked; split <;> rfl

end acked

theorem runReceived_cfg {s t : State} (h : runReceived s = .next t) : t.cfg = s.cfg := by
  obtain ⟨k, p, ck, -, -, -, rfl⟩ := runReceived_eq_next h
  split <;> simp

theorem rxByteDone_cfg {s t : State} (h : rxByteDone s = .next t) : t.cfg = s.cfg := by
  rcases rxByteDone_cases s with ⟨-, -, e⟩ | ⟨k, -, -, e⟩ | ⟨-, -, e⟩ | ⟨-, -, e⟩ <;> rw [e] at h
  · cases h; rfl
  · cases h; rfl
  · exact runReceived_cfg h
  · cases h; rfl

/-- No tick of a session writes the configuration. -/
theorem Moves.cfg_eq {l : Lines} {s t : State} (h : Moves l s t) : t.cfg = s.cfg := by
  cases h with
  | byteDone _ _ _ _ h => rw [rxByteDone_cfg h, State.acked_cfg]
  | _ => simp

/-- No step writes the configuration (10_state.md R65). -/
theorem step_cfg {s t : State} (h : step s = .next t) : t.cfg = s.cfg := by
  obtain ⟨-, ⟨-, rfl⟩ | ⟨-, u, v, hu, hv, rfl⟩⟩ := step_eq_next h
  · rfl
  · have hcfg : u.cfg = s.cfg := (hostAccess_keeps hu).1
    split at hv
    · exact (handshake_moves hv).cfg_eq.trans hcfg
    · cases hv; exact hcfg

/-- Settles O44: no step writes the configuration, `checked` refuses an ill-formed one, and the places of the wire
codes tell commands apart but for Postflash. -/
theorem configurationIsCheckedAndKept : Obligations.ConfigurationIsCheckedAndKept := by
  refine ⟨fun s t => step_cfg, fun s => step_of_not_wf, fun c k k' hc h => ?_⟩
  rcases codePlace_eq (codePlace_eq_of_code_eq hc h) with rfl | ⟨hk, hk'⟩
  · exact .inl rfl
  · exact .inr ⟨code_of_postflash c hk, hk, hk'⟩

end Sys2Proof.Machine
end

section
/-! A session in progress: what a host access leaves of it, that every tick of it answers a next state
(60_exceptions.md R313), and that no tick of a resting or a busy block stops under a well-formed configuration. -/

namespace Sys2Proof.Machine

/-! The invariant through a host access -/

/-- What is known of the frame depends on these fields alone. -/
theorem State.FrameKnown.congr {s u : State} (h : s.FrameKnown) (hoffset : u.offset = s.offset)
    (hflen : u.flen = s.flen) (hcidx : u.cidx = s.cidx) (hcfg : u.cfg = s.cfg) (hop : u.op = s.op)
    (hlatched : u.latched = s.latched) (hshadow : u.shadow = s.shadow) : u.FrameKnown := by
  simpa only [State.FrameKnown, hoffset, hflen, hcidx, hcfg, hop, hlatched, hshadow] using h

section same

variable {s u : State} (h : s.SameSession u)

include h

theorem State.SameSession.bound_eq : u.bound = s.bound := by
  simp only [State.bound, State.tmoBound, State.tbitBound, State.tackBound, State.thalfBound, State.tackholdBound,
    h.role, h.hs, h.ph, h.latched]

theorem State.SameSession.outputs_eq : u.outputs = s.outputs := by
  simp only [State.outputs, h.role, h.hs, h.ph, h.shreg, h.bitn]

theorem State.SameSession.ticksLeft_eq : u.ticksLeft = s.ticksLeft := by
  simp only [State.ticksLeft, State.currentTicks, State.laterTicks, State.frameLimit, State.byteTicks,
    State.tmoBound, State.tbitBound, State.tackBound, State.thalfBound, State.tackholdBound, h.role, h.hs, h.ph,
    h.latched, h.cnt, h.bitn, h.flen, h.offset]

theorem State.SameSession.sending {k : Cmd} (hs : s.Sending k) : u.Sending k where
  op := h.op ▸ hs.op
  cidx := h.cidx ▸ hs.cidx
  sel := h.latched ▸ hs.sel
  flen := h.flen ▸ hs.flen
  offset := h.offset ▸ hs.offset
  first := h.hs ▸ h.offset ▸ h.bitn ▸ h.ph ▸ hs.first
  byte := by simpa only [h.hs, h.shreg, h.offset, h.fbuf] using hs.byte
  last := h.hs ▸ h.bitn ▸ hs.last

theorem State.SameSession.hearing (hcfg : u.cfg = s.cfg) (hs : s.Hearing) : u.Hearing where
  op := h.role ▸ h.op ▸ h.latched ▸ hs.op
  frame := hs.frame.congr h.offset.symm h.flen.symm h.cidx.symm hcfg h.op.symm h.latched.symm h.shadow.symm
  first := h.hs ▸ h.offset ▸ h.bitn ▸ hs.first
  phase := h.ph ▸ h.hs ▸ hs.phase
  last := h.hs ▸ h.bitn ▸ hs.last

theorem State.SameSession.inSession (hcfg : u.cfg = s.cfg) (hdone : u.done = false) (hs : s.InSession) :
    u.InSession where
  done := hdone
  hs := h.hs ▸ hs.hs
  latched := by simpa only [State.tmoBound, State.tbitBound, State.tackBound, State.thalfBound, State.tackholdBound,
    h.latched] using hs.latched
  cnt := by rw [h.bound_eq, ← h.cnt]; exact hs.cnt
  oe := by rw [h.outputs_eq, ← h.oe]; exact hs.oe
  role := hs.role.imp (fun ⟨hr, k, hk⟩ => ⟨h.role ▸ hr, k, h.sending hk⟩) (h.hearing hcfg)

end same

/-- No host access sets DONE while a session is active. -/
theorem hostAccess_done_of_busy {h : HostAccess} {s u : State} (hb : s.busy = true) (hd : s.done = false)
    (e : hostAccess h s = .next u) : u.done = false := by
  rcases hostAccess_cases h s with e' | ⟨_, v, _, _, e'⟩ | ⟨a, v, _, _, e'⟩ <;> rw [e'] at e <;> cases e
  · exact hd
  · rw [issue_of_busy hb]; exact hd
  · unfold State.writeWord
    split <;> simp [hd]

/-- A host access leaves a session in progress in the invariant. -/
theorem hostAccess_inSession {h : HostAccess} {s u : State} (hb : s.busy = true) (hs : s.InSession)
    (e : hostAccess h s = .next u) : u.InSession :=
  (hostAccess_of_busy hb e).inSession (hostAccess_keeps e).1 (hostAccess_done_of_busy hb hs.done e) hs

/-! Every operation of a session answers a next state -/

theorem waitFor_next {cond : Bool} {bound : Nat} {ok fail : State → Result} {s : State}
    (hok : ∃ t, ok (s.setCnt 0) = .next t) (hfail : ∃ t, fail s = .next t) :
    ∃ t, waitFor cond bound ok fail s = .next t := by
  rcases waitFor_cases cond bound ok fail s with ⟨-, e⟩ | ⟨-, -, e⟩ | ⟨-, -, e⟩ <;> rw [e]
  · exact hok
  · exact hfail
  · exact ⟨_, rfl⟩

theorem holdFor_next {bound : Nat} {done : State → Result} {s : State} (hdone : ∃ t, done (s.setCnt 0) = .next t) :
    ∃ t, holdFor bound done s = .next t := by
  rcases holdFor_cases bound done s with ⟨-, e⟩ | ⟨-, e⟩ <;> rw [e]
  · exact hdone
  · exact ⟨_, rfl⟩

theorem State.shadowBytes_length (s : State) (n : Nat) : (s.shadowBytes n).length = n := by simp [State.shadowBytes]

theorem State.shadowBytes_head (s : State) {n : Nat} (h : 0 < n) : (s.shadowBytes n).getD 0 0 = s.shadow.read 0 := by
  simp [State.shadowBytes, h]

/-- A whole frame of a known command runs as its instruction (R209, R212): the fault frameNotInCatalog does not
arise. -/
theorem runReceived_of_frameKnown {s : State} (h : s.FrameKnown) (h0 : s.offset ≠ 0) :
    ∃ t, runReceived s = .next t := by
  obtain ⟨hoffset, -, -⟩ | ⟨k, hcidx, hflen, -, -, hlookup⟩ := h
  · exact absurd hoffset h0
  have hn : s.flen.toNat = k.flen := by rw [hflen, k.flen_toNat]
  have hpos : 0 < s.flen.toNat := by have := k.flen_bounds; omega
  have hcode : (s.shadowBytes s.flen.toNat).getD 0 0 = s.cfg.code k := by
    rw [s.shadowBytes_head hpos, code_of_lookup hlookup]
  obtain ⟨p, ck, -, -, hdec⟩ := decodeFrameAs_of_length hcode (by rw [s.shadowBytes_length, hn])
  have hinstr : s.receivedInstr = .ok (frameInstr k p ck) := by simp only [State.receivedInstr, hcidx, hdec]
  exact ⟨_, by simp only [runReceived, hinstr, exec_frameInstr, receiveFrame]; rfl⟩

theorem rxByteDone_next {s : State} (h : s.FrameKnown) : ∃ t, rxByteDone s = .next t := by
  rcases rxByteDone_cases s with ⟨-, -, e⟩ | ⟨k, -, -, e⟩ | ⟨h0, -, e⟩ | ⟨-, -, e⟩
  · exact ⟨_, e⟩
  · exact ⟨_, e⟩
  · exact e ▸ runReceived_of_frameKnown h h0
  · exact ⟨_, e⟩

theorem senderByteDone_next (s : State) : ∃ t, senderByteDone s = .next t := by
  unfold senderByteDone
  split <;> exact ⟨_, rfl⟩

/-- Every tick of a SEND session answers a next state. -/
theorem senderStep_next (l : Lines) (s : State) : ∃ t, senderStep l s = .next t := by
  unfold senderStep
  split
  · exact waitFor_next ⟨_, rfl⟩ ⟨_, rfl⟩
  · exact holdFor_next ⟨_, rfl⟩
  · exact holdFor_next ⟨_, rfl⟩
  · exact holdFor_next ⟨_, rfl⟩
  · exact waitFor_next ⟨_, rfl⟩ ⟨_, rfl⟩
  · exact waitFor_next (senderByteDone_next _) ⟨_, rfl⟩
  · exact ⟨_, rfl⟩

/-- Every tick of a RECEIVE session answers a next state. -/
theorem receiverStep_next (l : Lines) {s : State} (h : s.FrameKnown) : ∃ t, receiverStep l s = .next t := by
  unfold receiverStep
  split
  · exact waitFor_next ⟨_, rfl⟩ ⟨_, rfl⟩
  · exact waitFor_next ⟨_, rfl⟩ ⟨_, rfl⟩
  · exact waitFor_next ⟨_, rfl⟩ ⟨_, rfl⟩
  · exact waitFor_next ⟨_, rfl⟩ ⟨_, rfl⟩
  · exact holdFor_next (rxByteDone_next (h.congr rfl rfl rfl rfl rfl rfl rfl))
  · exact ⟨_, rfl⟩

/-- Every tick of a LISTEN session answers a next state. -/
theorem observerStep_next (l : Lines) {s : State} (h : s.FrameKnown) : ∃ t, observerStep l s = .next t := by
  unfold observerStep
  split
  · exact waitFor_next ⟨_, rfl⟩ ⟨_, rfl⟩
  · exact waitFor_next ⟨_, rfl⟩ ⟨_, rfl⟩
  · exact waitFor_next ⟨_, rfl⟩ ⟨_, rfl⟩
  · exact waitFor_next ⟨_, rfl⟩ ⟨_, rfl⟩
  · exact waitFor_next (rxByteDone_next (h.congr rfl rfl rfl rfl rfl rfl rfl)) ⟨_, rfl⟩
  · exact ⟨_, rfl⟩

/-- Every tick of a session of the invariant answers a next state, whatever the lines are. -/
theorem handshake_next (l : Lines) {s : State} (h : s.InSession) : ∃ t, handshake l s = .next t := by
  obtain ⟨hr, -⟩ | hear := h.role
  · simpa only [handshake, hr] using senderStep_next l s
  · obtain ⟨hr, -⟩ | ⟨hr, -⟩ := hear.op
    · simpa only [handshake, hr] using receiverStep_next l hear.frame
    · simpa only [handshake, hr] using observerStep_next l hear.frame

/-- A tick without reset is the host access and then, in a session, the session's own tick. -/
theorem runTick_next {i : TickInput} {s : State} (h : s.Inv) : ∃ t, runTick i s = .next t := by
  obtain ⟨u, hu⟩ := hostAccess_next i.host s
  have hv : ∃ v, (if s.busy then handshake (resolveLines s.oe i.peer) u else .next u) = .next v := by
    split
    · next hb => exact handshake_next _ (hostAccess_inSession hb (h.session hb) hu)
    · exact ⟨u, rfl⟩
  obtain ⟨v, hv⟩ := hv
  exact ⟨_, by rw [runTick, hu, andThen_next, hv, andThen_next]⟩

/-- Settles O47: a reset tick always has a next state, and `runTick_next` gives that of any other. -/
theorem stepNeverStops : Obligations.StepNeverStops := by
  intro s hinv hwf
  cases hr : s.nextInput.rst with
  | true => exact ⟨_, step_eq_resetTick hwf hr⟩
  | false => exact step_eq_runTick hwf hr ▸ runTick_next hinv

end Sys2Proof.Machine
end

section
/-! The budget of a session: every tick of it counts in the current wait, goes on to a later part of the byte, or goes
on to a later byte of the frame, and each of these leaves fewer ticks to take (40_handshake.md R169,
70_reset_and_hazards.md R364). -/

namespace Sys2Proof.Machine

/-- The ticks that the byte in transfer can still take after the current wait or hold. -/
def State.afterWait (s : State) : Nat :=
  match s.role, s.hs, s.ph with
  | .sender, .idle, _ => s.thalfBound + s.byteTicks
  | .sender, .start, _ => s.byteTicks
  | .sender, .bit, false => (15 - 2 * s.bitn.toNat) * s.thalfBound + 2 * s.tackBound
  | .sender, .bit, true => (14 - 2 * s.bitn.toNat) * s.thalfBound + 2 * s.tackBound
  | .sender, .ack, false => s.tackBound
  | .receiver, .idle, _ => s.byteTicks
  | .receiver, .start, _ => (8 - s.bitn.toNat) * s.tbitBound + s.tackholdBound
  | .receiver, .bit, _ => (8 - s.bitn.toNat) * s.tbitBound + s.tackholdBound
  | .receiver, .ack, false => s.tackholdBound
  | .observer, .idle, _ => s.byteTicks
  | .observer, .start, _ => (7 - s.bitn.toNat) * s.tbitBound + 2 * s.tackBound
  | .observer, .bit, _ => (7 - s.bitn.toNat) * s.tbitBound + 2 * s.tackBound
  | .observer, .ack, false => s.tackBound
  | _, _, _ => 0

/-- The ticks of the byte in transfer are the rest of the current wait and what comes after it. -/
theorem currentTicks_eq {s : State} (hs : s.hs ≠ .timedOut) :
    s.currentTicks = (s.bound - s.cnt.toNat) + s.afterWait := by
  unfold State.currentTicks State.bound State.afterWait
  cases s.role with
  | none => simp
  | sender => rcases HS.cases_of_ne hs with hh | hh | hh | hh <;> cases s.ph <;> simp [hh, Nat.add_assoc]
  | receiver => rcases HS.cases_of_ne hs with hh | hh | hh | hh <;> cases s.ph <;> simp [hh, Nat.add_assoc]
  | observer => rcases HS.cases_of_ne hs with hh | hh | hh | hh <;> cases s.ph <;> simp [hh, Nat.add_assoc]

theorem afterWait_receiverCell {s : State} (hr : s.role = .receiver) (hh : s.hs = .start ∨ s.hs = .bit) :
    s.afterWait = (8 - s.bitn.toNat) * s.latched.tbit.toNat + s.latched.tackhold.toNat := by
  rcases hh with hh | hh <;> simp [State.afterWait, hr, hh]

theorem afterWait_observerCell {s : State} (hr : s.role = .observer) (hh : s.hs = .start ∨ s.hs = .bit) :
    s.afterWait = (7 - s.bitn.toNat) * s.latched.tbit.toNat + 2 * s.latched.tack.toNat := by
  rcases hh with hh | hh <;> simp [State.afterWait, hr, hh]

theorem State.InSession.afterWait_lt {s : State} (hs : s.InSession) : s.afterWait < s.currentTicks := by
  have := hs.cnt
  rw [currentTicks_eq hs.hs]
  omega

/-- No bound is wider than the counter. -/
theorem bound_le (s : State) : s.bound ≤ 2 ^ 32 := by
  have htmo : s.tmoBound < 2 ^ 32 := s.latched.tmo.isLt
  have htbit : s.tbitBound < 2 ^ 16 := s.latched.tbit.isLt
  have htack : s.tackBound < 2 ^ 16 := s.latched.tack.isLt
  have hthalf : s.thalfBound < 2 ^ 16 := s.latched.thalf.isLt
  have htackhold : s.tackholdBound < 2 ^ 16 := s.latched.tackhold.isLt
  unfold State.bound
  split <;> omega

/-! The three ways in which a tick uses up the budget -/

theorem laterTicks_eq {s t : State} (hrole : t.role = s.role) (hlatched : t.latched = s.latched)
    (hflen : t.flen = s.flen) (hoffset : t.offset = s.offset) : t.laterTicks = s.laterTicks := by
  simp only [State.laterTicks, State.frameLimit, State.byteTicks, State.tbitBound, State.tackBound, State.thalfBound,
    State.tackholdBound, hrole, hlatched, hflen, hoffset]

/-- The wait goes on and counts. -/
theorem ticksLeft_lt_of_count {s : State} (hs : s.InSession) (h : s.cnt.toNat + 1 < s.bound) :
    (s.setCnt (s.cnt + 1)).ticksLeft < s.ticksLeft := by
  have hcnt : (s.setCnt (s.cnt + 1)).cnt.toNat = s.cnt.toNat + 1 := cnt_succ h (bound_le s)
  have hbound : (s.setCnt (s.cnt + 1)).bound = s.bound := rfl
  have hafter : (s.setCnt (s.cnt + 1)).afterWait = s.afterWait := rfl
  have hlater : (s.setCnt (s.cnt + 1)).laterTicks = s.laterTicks := rfl
  have hcur := currentTicks_eq (s := s.setCnt (s.cnt + 1)) hs.hs
  rw [State.ticksLeft, State.ticksLeft, hlater, hcur, currentTicks_eq hs.hs, hcnt, hbound, hafter]
  omega

/-- The wait ends within the byte: the next wait and what comes after it were counted as after this one. -/
theorem ticksLeft_lt_of_waitEnds {s t : State} (hs : s.InSession) (h : t.bound + t.afterWait ≤ s.afterWait)
    (ht : t.hs ≠ .timedOut := by simp) (hrole : t.role = s.role := by simp)
    (hlatched : t.latched = s.latched := by simp) (hflen : t.flen = s.flen := by simp)
    (hoffset : t.offset = s.offset := by simp) : t.ticksLeft < s.ticksLeft := by
  have := hs.afterWait_lt
  rw [State.ticksLeft, State.ticksLeft, laterTicks_eq hrole hlatched hflen hoffset, currentTicks_eq ht]
  omega

/-- The byte ends and a later one of the frame begins at its first cell. -/
theorem ticksLeft_lt_of_nextByte {s t : State} (hs : s.InSession)
    (h : t.frameLimit - (t.offset.toNat + 1) + 1 ≤ s.frameLimit - (s.offset.toNat + 1))
    (hhs : t.hs = .bit := by simp) (hbitn : t.bitn = 0 := by simp) (hph : t.ph = false := by simp)
    (hrole : t.role = s.role := by simp) (hlatched : t.latched = s.latched := by simp) :
    t.ticksLeft < s.ticksLeft := by
  have hbyte : t.byteTicks = s.byteTicks := by
    simp only [State.byteTicks, State.tbitBound, State.tackBound, State.thalfBound, State.tackholdBound, hrole,
      hlatched]
  have hfirst : t.currentTicks ≤ t.byteTicks := by
    rw [currentTicks_eq (by rw [hhs]; decide)]
    unfold State.bound State.afterWait State.byteTicks
    rw [hhs, hbitn, hph]
    cases t.role <;> simp <;> omega
  calc t.ticksLeft
    _ = t.currentTicks + (t.frameLimit - (t.offset.toNat + 1)) * s.byteTicks := by
      rw [State.ticksLeft, State.laterTicks, hbyte]
    _ ≤ (t.frameLimit - (t.offset.toNat + 1) + 1) * s.byteTicks := by rw [Nat.succ_mul]; omega
    _ ≤ s.laterTicks := Nat.mul_le_mul_right _ h
    _ < s.ticksLeft := by have := hs.afterWait_lt; rw [State.ticksLeft]; omega

/-! The frame's length and the byte after this one -/

theorem frameLimit_of_flen {s : State} {k : Cmd} (h : s.flen = BitVec.ofNat 6 k.flen) : s.frameLimit = k.flen := by
  have hn : s.flen.toNat = k.flen := by rw [h, k.flen_toNat]
  have h0 : s.flen ≠ 0 := by
    intro h0
    have := k.flen_bounds
    rw [h0] at hn
    simp at hn
    omega
  rw [State.frameLimit, if_neg h0, hn]

/-- Before the last byte the offset goes up by one and stays inside the frame. -/
theorem offset_succ {s : State} {k : Cmd} (hflen : s.flen = BitVec.ofNat 6 k.flen) (ho : s.offset.toNat < k.flen)
    (hl : s.offset + 1 ≠ s.flen) : (s.offset + 1).toNat = s.offset.toNat + 1 ∧ s.offset.toNat + 1 < k.flen := by
  have hk := k.flen_bounds
  have hn : s.flen.toNat = k.flen := by rw [hflen, k.flen_toNat]
  have hsucc : (s.offset + 1).toNat = s.offset.toNat + 1 := by bv_omega
  have hne : (s.offset + 1).toNat ≠ s.flen.toNat := fun h => hl (BitVec.eq_of_toNat_eq h)
  omega

/-- With the next byte begun, one byte less of the frame is to come. -/
theorem bytesLeft_succ_le {s t : State} {k : Cmd} (hflen : s.flen = BitVec.ofNat 6 k.flen)
    (ho : s.offset.toNat < k.flen) (hl : s.offset + 1 ≠ s.flen) (htflen : t.flen = s.flen)
    (htoffset : t.offset = s.offset + 1) :
    t.frameLimit - (t.offset.toNat + 1) + 1 ≤ s.frameLimit - (s.offset.toNat + 1) := by
  obtain ⟨hsucc, hlt⟩ := offset_succ hflen ho hl
  rw [frameLimit_of_flen (htflen.trans hflen), frameLimit_of_flen hflen, htoffset, hsucc]
  omega

/-- One more cell of `T` ticks leaves one cell less to come. -/
theorem cell_add_le {a b T : Nat} (h : a + 1 ≤ b) : T + a * T ≤ b * T := by
  rw [Nat.add_comm, ← Nat.succ_mul]
  exact Nat.mul_le_mul_right T h

/-! The moves of a session -/

theorem State.InSession.sending_of_role {s : State} (hs : s.InSession) (hr : s.role = .sender) : ∃ k, s.Sending k := by
  obtain ⟨-, hk⟩ | hear := hs.role
  · exact hk
  · obtain ⟨hr', -⟩ | ⟨hr', -⟩ := hear.op <;> rw [hr'] at hr <;> cases hr

theorem State.InSession.hearing_of_role {s : State} (hs : s.InSession) (hr : s.role = .receiver ∨ s.role = .observer) :
    s.Hearing := by
  obtain ⟨hr', -⟩ | hear := hs.role
  · rw [hr'] at hr
    simp at hr
  · exact hear

theorem State.InSession.role_ne_none {s : State} (hs : s.InSession) : s.role ≠ .none := by
  obtain ⟨hr, -⟩ | hear := hs.role
  · simp [hr]
  · obtain ⟨hr, -⟩ | ⟨hr, -⟩ := hear.op <;> simp [hr]

theorem State.Hearing.receiving {s : State} (hear : s.Hearing) (hb : s.busy = true) : s.receiving = true := by
  obtain ⟨-, ho, -⟩ | ⟨-, ho⟩ := hear.op <;> simp [State.receiving, hb, ho]

/-- The frame done of a receiving session ends it (R212). -/
theorem runReceived_busy {s t : State} (hr : s.receiving = true) (h : runReceived s = .next t) : t.busy = false := by
  obtain ⟨k, p, ck, -, -, -, rfl⟩ := runReceived_eq_next h
  rw [if_pos hr, frameDone_busy]

/-- A sample goes on to the next cell, or to the acknowledge. -/
theorem sample_ticksLeft_lt {l : Lines} {s : State} (hs : s.InSession) (hear : s.Hearing)
    (hr : s.role = .receiver ∨ s.role = .observer) (hh : s.hs = .start ∨ s.hs = .bit) :
    (sample l (s.setCnt 0)).ticksLeft < s.ticksLeft := by
  rcases sample_cases l (s.setCnt 0) with ⟨hb, v, e⟩ | ⟨-, hb, v, e⟩ <;> rw [e]
  · have hb7 : s.bitn.toNat < 7 := by
      rcases hb with hb | hb
      · simp [(hear.first (.inr hb)).2]
      · exact hb
    have hmod : (s.bitn.toNat + 1) % 8 = s.bitn.toNat + 1 := by omega
    refine ticksLeft_lt_of_waitEnds hs ?_
    rcases hr with hr | hr
    · have := cell_add_le (T := s.latched.tbit.toNat) (show 7 - s.bitn.toNat + 1 ≤ 8 - s.bitn.toNat by omega)
      rw [afterWait_receiverCell hr hh]
      simp [State.bound, State.afterWait, State.tbitBound, State.tackholdBound, hr, hmod]
      omega
    · have := cell_add_le (T := s.latched.tbit.toNat) (show 6 - s.bitn.toNat + 1 ≤ 7 - s.bitn.toNat by omega)
      rw [afterWait_observerCell hr hh]
      simp [State.bound, State.afterWait, State.tbitBound, State.tackBound, hr, hmod]
      omega
  · have hb7 : s.bitn = 7 := hb
    refine ticksLeft_lt_of_waitEnds hs ?_
    rcases hr with hr | hr
    · rw [afterWait_receiverCell hr hh]
      simp [State.bound, State.afterWait, State.tbitBound, State.tackholdBound, hr, hb7]
    · rw [afterWait_observerCell hr hh]
      simp [State.bound, State.afterWait, State.tackBound, hr, hb7]
      omega

/-- The receive-side byte done inside a frame goes on to the next byte, whose frame's length is now known. -/
theorem rxByteDone_ticksLeft_lt {s t : State} (hs : s.InSession) (hear : s.Hearing) (hb : s.busy = true)
    (h : rxByteDone s.acked = .next t) (ht : t.busy = true) : t.ticksLeft < s.ticksLeft := by
  rcases rxByteDone_cases s.acked with ⟨-, -, e⟩ | ⟨k, h0, -, e⟩ | ⟨-, -, e⟩ | ⟨h0, hl, e⟩ <;> rw [e] at h
  · cases h
    simp at ht
  · cases h
    obtain ⟨hoffset, hflen, -⟩ | ⟨_, -, -, hpos, -⟩ := hear.frame
    · refine ticksLeft_lt_of_nextByte hs ?_
      rw [frameLimit_of_flen (k := k) rfl, State.frameLimit, if_pos hflen, hoffset]
      have := k.flen_bounds
      simp
      omega
    · rw [State.acked_offset] at h0
      simp [h0] at hpos
  · have hr : s.acked.receiving = true := by
      simpa only [State.receiving, State.acked_busy, State.acked_op] using hear.receiving hb
    rw [runReceived_busy hr h] at ht
    cases ht
  · cases h
    rw [State.acked_offset] at h0
    rw [State.acked_offset, State.acked_flen] at hl
    obtain ⟨hoffset, -, -⟩ | ⟨k, -, hflen, -, ho, -⟩ := hear.frame
    · exact absurd hoffset h0
    · exact ticksLeft_lt_of_nextByte hs (bytesLeft_succ_le hflen ho hl (by simp) (by simp))

/-- Every tick of a session that goes on leaves fewer ticks to take. -/
theorem Moves.ticksLeft_lt {l : Lines} {s t : State} (h : Moves l s t) (hb : s.busy = true) (hs : s.InSession)
    (ht : t.busy = true) : t.ticksLeft < s.ticksLeft := by
  cases h with
  | nowhere h => exact absurd h (not_or.mpr ⟨hs.role_ne_none, hs.hs⟩)
  | count h => exact ticksLeft_lt_of_count hs h
  | expire => simp at ht
  | pullSync hr hh =>
    refine ticksLeft_lt_of_waitEnds hs ?_
    simp [State.bound, State.afterWait, State.byteTicks, State.tackBound, State.thalfBound, hr, hh]
  | firstByte hr hh =>
    refine ticksLeft_lt_of_waitEnds hs ?_
    simp [State.bound, State.afterWait, State.byteTicks, State.tackBound, State.thalfBound, hr, hh]
    omega
  | clockLow hr hh hp =>
    refine ticksLeft_lt_of_waitEnds hs ?_
    have := cell_add_le (T := s.latched.thalf.toNat) (show 14 - 2 * s.bitn.toNat + 1 ≤ 15 - 2 * s.bitn.toNat by omega)
    simp [State.bound, State.afterWait, State.tackBound, State.thalfBound, hr, hh, hp]
    omega
  | nextCell hr hh hp _ hb7 =>
    refine ticksLeft_lt_of_waitEnds hs ?_
    have := cell_add_le (T := s.latched.thalf.toNat)
      (show 15 - 2 * (s.bitn.toNat + 1) + 1 ≤ 14 - 2 * s.bitn.toNat by omega)
    have hmod : (s.bitn.toNat + 1) % 8 = s.bitn.toNat + 1 := by omega
    simp [State.bound, State.afterWait, State.tackBound, State.thalfBound, hr, hh, hp, hmod]
    omega
  | lastCell hr hh hp _ hb7 =>
    refine ticksLeft_lt_of_waitEnds hs ?_
    simp [State.bound, State.afterWait, State.tackBound, State.thalfBound, hr, hh, hp, hb7]
    omega
  | ackLow hr hh hp =>
    refine ticksLeft_lt_of_waitEnds hs ?_
    rcases hr with hr | hr <;> simp [State.bound, State.afterWait, State.tackBound, hr, hh, hp]
  | frameSent => simp at ht
  | nextSent hr _ _ _ hl =>
    obtain ⟨k, hk⟩ := hs.sending_of_role hr
    exact ticksLeft_lt_of_nextByte hs (bytesLeft_succ_le hk.flen hk.offset hl (by simp) (by simp))
  | started hr hh =>
    refine ticksLeft_lt_of_waitEnds hs ?_
    rcases hr with hr | hr <;> simp [State.bound, State.afterWait, State.byteTicks, State.tbitBound, State.tackBound,
      State.tackholdBound, hr, hh] <;> omega
  | sampled hr hh => exact sample_ticksLeft_lt hs (hs.hearing_of_role hr) hr hh
  | pullAck hr hh hp =>
    refine ticksLeft_lt_of_waitEnds hs ?_
    simp [State.bound, State.afterWait, State.tackholdBound, hr, hh, hp]
  | byteDone hr _ _ _ h =>
    exact rxByteDone_ticksLeft_lt hs (hs.hearing_of_role (hr.imp And.left And.left)) hb h ht

/-- Settles O49: the host access leaves the session and its budget, and the session's own tick is one of `Moves`. -/
theorem everySessionTickUsesUpItsBudget : Obligations.EverySessionTickUsesUpItsBudget := by
  intro s t hinv hb hrst h ht
  obtain ⟨-, ⟨hr, -⟩ | ⟨-, u, v, hu, hv, rfl⟩⟩ := step_eq_next h
  · rw [hr] at hrst
    cases hrst
  rw [if_pos hb] at hv
  have same := hostAccess_of_busy hb hu
  have hlt : v.ticksLeft < u.ticksLeft :=
    (handshake_moves hv).ticksLeft_lt (same.busy ▸ hb) (hostAccess_inSession hb (hinv.session hb) hu) ht
  rw [same.ticksLeft_eq] at hlt
  exact hlt

end Sys2Proof.Machine
end

section
/-! The fields of the register words as the host reads them (10_state.md R32 to R42, 60_exceptions.md R316). -/

namespace Sys2Proof.Machine

/-! The result word: each field is the part that `State.resultWord` puts there -/

section resultWord

variable (s : State) (err : Completion) (anom : BitVec 45) (c : BitVec 6)

/-- A field of the result word, taken from its nine parts (R36). -/
theorem resultWord_field (k l : Nat) :
    (s.resultWord err anom c).extractLsb' k l =
      BitVec.extractLsb' (n := 2 + 6 + 4 + 4 + 8 + 2 + 1 + 1 + 4) k l
        (0#2 ++ s.nbytes c ++ 0#4 ++ s.resultCmdidx ++ s.resultCode c ++ 0#2
          ++ BitVec.ofBool (s.resultAmbig c) ++ BitVec.ofBool (decide (anom ≠ 0)) ++ err.code) := rfl

/-- A bit of the result word, taken from its nine parts (R36). -/
theorem resultWord_bit (i : Nat) :
    (s.resultWord err anom c).getLsbD i =
      BitVec.getLsbD (w := 2 + 6 + 4 + 4 + 8 + 2 + 1 + 1 + 4)
        (0#2 ++ s.nbytes c ++ 0#4 ++ s.resultCmdidx ++ s.resultCode c ++ 0#2
          ++ BitVec.ofBool (s.resultAmbig c) ++ BitVec.ofBool (decide (anom ≠ 0)) ++ err.code) i := rfl

theorem resultWord_err : (s.resultWord err anom c).extractLsb' 0 4 = err.code := by
  simp (disch := decide) only [resultWord_field, field_append_low, field_all]

theorem resultWord_anom : (s.resultWord err anom c).getLsbD 4 = decide (anom ≠ 0) := by
  simp (disch := decide) only [resultWord_bit, getLsbD_append_low, getLsbD_append_high, Nat.reduceSub,
    getLsbD_ofBool_zero]

theorem resultWord_ambig : (s.resultWord err anom c).getLsbD 5 = s.resultAmbig c := by
  simp (disch := decide) only [resultWord_bit, getLsbD_append_low, getLsbD_append_high, Nat.reduceSub,
    getLsbD_ofBool_zero]

theorem resultWord_code : (s.resultWord err anom c).extractLsb' 8 8 = s.resultCode c := by
  simp (disch := decide) only [resultWord_field, field_append_low, field_append_high, Nat.reduceSub, field_all]

theorem resultWord_cmdidx : (s.resultWord err anom c).extractLsb' 16 4 = s.resultCmdidx := by
  simp (disch := decide) only [resultWord_field, field_append_low, field_append_high, Nat.reduceSub, field_all]

theorem resultWord_nbytes : (s.resultWord err anom c).extractLsb' 24 6 = s.nbytes c := by
  simp (disch := decide) only [resultWord_field, field_append_low, field_append_high, Nat.reduceSub, field_all]

theorem resultWord_reserved :
    (s.resultWord err anom c).extractLsb' 6 2 = 0 ∧ (s.resultWord err anom c).extractLsb' 20 4 = 0 ∧
      (s.resultWord err anom c).extractLsb' 30 2 = 0 := by
  simp (disch := decide) only [resultWord_field, field_append_low, field_append_high, Nat.reduceSub, field_all,
    BitVec.ofNat_eq_ofNat, and_self]

end resultWord

/-- Settles O17: each field of the word is the part that R36 names, and those parts are R316's. -/
theorem resultWordFields : Obligations.ResultWordFields := by
  intro s err anom c
  refine ⟨?_, resultWord_anom s err anom c, ?_, ?_, ?_, resultWord_nbytes s err anom c,
    resultWord_reserved s err anom c⟩
  · rw [resultWord_err]
    refine ⟨?_, ?_, ?_, ?_, ?_, ?_⟩ <;> (rintro rfl; rfl)
  · rw [resultWord_ambig, State.resultAmbig]
    simp [State.sent, State.nbytes, Bool.and_assoc]
  · rw [resultWord_code, State.resultCode]
    simp [State.sent, State.nbytes]
  · rw [resultWord_cmdidx, State.resultCmdidx]
    cases s.cidx <;> simp [State.sent, cidxField]

/-! CTRL, STATUS and LINES -/

section words

variable (s : State)

/-- A bit of CTRL, taken from its three parts (R33). -/
theorem ctrlWord_bit (i : Nat) :
    s.ctrlWord.getLsbD i =
      BitVec.getLsbD (w := 30 + 1 + 1) (0#30 ++ BitVec.ofBool s.pfSel ++ BitVec.ofBool s.ie) i := rfl

theorem ctrlWord_fields :
    s.ctrlWord.getLsbD 0 = s.ie ∧ s.ctrlWord.getLsbD 1 = s.pfSel ∧ s.ctrlWord.extractLsb' 2 30 = 0 := by
  have hfield : s.ctrlWord.extractLsb' 2 30 =
      BitVec.extractLsb' (n := 30 + 1 + 1) 2 30 (0#30 ++ BitVec.ofBool s.pfSel ++ BitVec.ofBool s.ie) := rfl
  simp (disch := decide) only [hfield, ctrlWord_bit, getLsbD_append_low, getLsbD_append_high, field_append_high,
    Nat.reduceSub, field_all, getLsbD_ofBool_zero, BitVec.ofNat_eq_ofNat, and_self]

/-- A bit of STATUS, taken from its parts (R35). -/
theorem statusWord_bit (i : Nat) :
    s.statusWord.getLsbD i =
      BitVec.getLsbD (w := 10 + 6 + 5 + 3 + 1 + 3 + 1 + 1 + 1 + 1)
        (0#10 ++ s.offset ++ 0#5 ++ s.bitn ++ BitVec.ofBool s.ph ++ s.hs.code ++ 0#1
          ++ BitVec.ofBool s.rej ++ BitVec.ofBool s.done ++ BitVec.ofBool s.busy) i := rfl

/-- A field of STATUS, taken from its parts (R35). -/
theorem statusWord_field (k l : Nat) :
    s.statusWord.extractLsb' k l =
      BitVec.extractLsb' (n := 10 + 6 + 5 + 3 + 1 + 3 + 1 + 1 + 1 + 1) k l
        (0#10 ++ s.offset ++ 0#5 ++ s.bitn ++ BitVec.ofBool s.ph ++ s.hs.code ++ 0#1
          ++ BitVec.ofBool s.rej ++ BitVec.ofBool s.done ++ BitVec.ofBool s.busy) := rfl

theorem statusWord_flags :
    s.statusWord.getLsbD 0 = s.busy ∧ s.statusWord.getLsbD 1 = s.done ∧ s.statusWord.getLsbD 2 = s.rej ∧
      s.statusWord.getLsbD 7 = s.ph ∧ s.statusWord.getLsbD 3 = false := by
  simp (disch := decide) only [statusWord_bit, getLsbD_append_low, getLsbD_append_high, Nat.reduceSub,
    getLsbD_ofBool_zero, BitVec.getLsbD_zero, and_self]

theorem statusWord_fields :
    s.statusWord.extractLsb' 4 3 = s.hs.code ∧ s.statusWord.extractLsb' 8 3 = s.bitn ∧
      s.statusWord.extractLsb' 16 6 = s.offset ∧ s.statusWord.extractLsb' 11 5 = 0 ∧
      s.statusWord.extractLsb' 22 10 = 0 := by
  simp (disch := decide) only [statusWord_field, field_append_low, field_append_high, Nat.reduceSub, field_all,
    BitVec.ofNat_eq_ofNat, and_self]

/-- The bits of a 4-bit field of lines: Sync, Ack, Data, Clock from bit 0 up (R42). -/
theorem linesField_bits (l : Lines) :
    (linesField l).getLsbD 0 = l.sync ∧ (linesField l).getLsbD 1 = l.ack ∧ (linesField l).getLsbD 2 = l.data ∧
      (linesField l).getLsbD 3 = l.clock := by
  have hbit (i : Nat) : (linesField l).getLsbD i =
      BitVec.getLsbD (w := 1 + 1 + 1 + 1)
        (BitVec.ofBool l.clock ++ BitVec.ofBool l.data ++ BitVec.ofBool l.ack ++ BitVec.ofBool l.sync) i := rfl
  simp (disch := decide) only [hbit, getLsbD_append_low, getLsbD_append_high, Nat.reduceSub, getLsbD_ofBool_zero,
    and_self]

/-- LINES: the previous levels in bits 3 to 0, the block's pulls in bits 11 to 8, every other bit 0 (R42). -/
theorem linesWord_parts :
    (∀ i, i < 4 → s.linesWord.getLsbD i = (linesField s.prev).getLsbD i) ∧
      (∀ i, i < 4 → s.linesWord.getLsbD (i + 8) = (linesField s.oe).getLsbD i) ∧
      s.linesWord.extractLsb' 4 4 = 0 ∧ s.linesWord.extractLsb' 12 20 = 0 := by
  have hbit (i : Nat) : s.linesWord.getLsbD i =
      BitVec.getLsbD (w := 20 + 4 + 4 + 4) (0#20 ++ linesField s.oe ++ 0#4 ++ linesField s.prev) i := rfl
  have hfield (k l : Nat) : s.linesWord.extractLsb' k l =
      BitVec.extractLsb' (n := 20 + 4 + 4 + 4) k l (0#20 ++ linesField s.oe ++ 0#4 ++ linesField s.prev) := rfl
  refine ⟨fun i hi => ?_, fun i hi => ?_, ?_⟩
  · rw [hbit, getLsbD_append_low _ _ _ hi]
  · rw [hbit, getLsbD_append_high _ _ _ (by omega), getLsbD_append_high _ _ _ (by omega),
      getLsbD_append_low _ _ _ (by omega), show i + 8 - 4 - 4 = i by omega]
  · simp (disch := decide) only [hfield, field_append_low, field_append_high, Nat.reduceSub, field_all,
      BitVec.ofNat_eq_ofNat, and_self]

end words

/-! The words by byte address -/

/-- A host read is the word of the byte address without its two low bits (20_memory.md R86). -/
theorem hostRead_eq {s : State} {addr : BitVec 12} {w : Nat} (h : addr.toNat / 4 = w) :
    s.hostRead addr = s.readWord w := by
  rw [State.hostRead, wordIndex_eq, h]

/-- Settles O18: the word read is STATUS or LINES, whose parts are known. -/
theorem statusAndLinesWordFields : Obligations.StatusAndLinesWordFields := by
  intro s addr
  refine ⟨fun h => ?_, fun h => ?_⟩ <;> rw [hostRead_eq h, State.readWord]
  · obtain ⟨hbusy, hdone, hrej, hph, h3⟩ := statusWord_flags s
    obtain ⟨hhs, hbitn, hoffset, h11, h22⟩ := statusWord_fields s
    refine ⟨hbusy, hdone, hrej, ?_, hph, hbitn, hoffset, h3, h11, h22⟩
    rw [hhs]
    refine ⟨?_, ?_, ?_, ?_, ?_⟩ <;> (intro hcode; rw [hcode]; rfl)
  · obtain ⟨hprev, hoe, h4, h12⟩ := linesWord_parts s
    obtain ⟨p0, p1, p2, p3⟩ := linesField_bits s.prev
    obtain ⟨o0, o1, o2, o3⟩ := linesField_bits s.oe
    exact ⟨(hprev 0 (by decide)).trans p0, (hprev 1 (by decide)).trans p1, (hprev 2 (by decide)).trans p2,
      (hprev 3 (by decide)).trans p3, (hoe 0 (by decide)).trans o0, (hoe 1 (by decide)).trans o1,
      (hoe 2 (by decide)).trans o2, (hoe 3 (by decide)).trans o3, h4, h12⟩

/-- Settles O19: each word is a stored register, but CTRL, whose three parts are known. -/
theorem registerWordsAsTheHostReadsThem : Obligations.RegisterWordsAsTheHostReadsThem := by
  intro s addr
  refine ⟨?_, ?_, ?_, ?_, ?_, ?_, ?_, ?_⟩ <;> intro h <;> rw [hostRead_eq h]
  case refine_1 => exact ctrlWord_fields s
  all_goals rfl

end Sys2Proof.Machine
end

section
/-! The invariant through a tick: the byte memories and the reserved bits, which every operation keeps, and the session,
which the host opens, its own ticks carry on and a completion ends (10_state.md R43 to R62, 40_handshake.md R172). -/

namespace Sys2Proof.Machine

/-! Canonical memories within their arrays -/

/-- A canonical memory whose cells all lie where `p` says there is storage. -/
def Memory.Within (p : Nat → Bool) (m : Memory) : Prop := m.wf = true ∧ m.all (fun c => p c.1) = true

theorem Memory.within_nil (p : Nat → Bool) : Memory.Within p [] := ⟨Memory.wf_nil, rfl⟩

/-- A canonical memory stays within `p` when every new cell lies there. -/
theorem Memory.Within.of_mem {p : Nat → Bool} {m n : Memory} (h : m.Within p) (hwf : n.wf = true)
    (hn : ∀ c ∈ n, p c.1 = true ∨ c ∈ m) : n.Within p :=
  ⟨hwf, List.all_eq_true.mpr fun c hc => (hn c hc).elim id (List.all_eq_true.mp h.2 c)⟩

theorem Memory.Within.write {p : Nat → Bool} {m : Memory} (h : m.Within p) {a : Nat} (ha : p a = true) (v : Byte) :
    (m.write a v).Within p :=
  h.of_mem (Memory.wf_write h.1 a v) fun _ hc => (Memory.mem_write hc).imp_left fun e => by rw [e, ha]

theorem Memory.Within.writeBytes {p : Nat → Bool} {m : Memory} (h : m.Within p) {a : Nat} {vs : List Byte}
    (ha : ∀ b, a ≤ b → b < a + vs.length → p b = true) : (m.writeBytes a vs).Within p :=
  h.of_mem (Memory.wf_writeBytes h.1 a vs) fun c hc => (Memory.mem_writeBytes hc).imp_left fun e => ha c.1 e.1 e.2

theorem bufferCell_iff (a : Nat) :
    bufferCell a = true ↔ (0x040 ≤ a ∧ a < 0x06F) ∨ (0x080 ≤ a ∧ a < 0x0AD) ∨ (0x100 ≤ a ∧ a < 0x140) := by
  simp [bufferCell, storable]

theorem Memory.Within.writeFbuf {m : Memory} (h : m.Within bufferCell) (f : List Byte) :
    (m.writeFbuf f).Within bufferCell :=
  Memory.Within.writeBytes h fun b hl hu => by
    simp only [List.length_map, List.length_range, fbufBase] at hl hu
    rw [bufferCell_iff]
    omega

theorem Memory.Within.writeFields {m : Memory} (h : m.Within bufferCell) (fv : List Byte) :
    (m.writeFields fv).Within bufferCell :=
  Memory.Within.writeBytes h fun b hl hu => by
    simp only [List.length_map, List.length_range, fieldBase] at hl hu
    rw [bufferCell_iff]
    omega

theorem Memory.Within.storeWord {m : Memory} (h : m.Within bufferCell) (w : Nat) (v : Word) :
    (m.storeWord w v).Within bufferCell :=
  h.of_mem (Memory.wf_storeWord h.1 w v) fun c hc => (Memory.mem_storeWord hc).imp_left fun hs => by
    rw [storable_iff] at hs
    exact (bufferCell_iff _).mpr (.inr hs)

/-! What the block stores, in and out of sessions -/

/-- The part of the invariant that no session takes part in: the byte memories, RESULT and ANOM1. -/
structure State.Stored (s : State) : Prop where
  mem : s.mem.Within bufferCell
  shadow : s.shadow.Within fun a => decide (a < 47)
  result_reserved : s.result.extractLsb' 6 2 = 0 ∧ s.result.extractLsb' 20 4 = 0 ∧ s.result.extractLsb' 30 2 = 0
  result_err : (s.result.extractLsb' 0 4).toNat ≤ 5
  anom_reserved : s.anom1.extractLsb' 13 19 = 0

theorem State.Inv.stored {s : State} (h : s.Inv) : s.Stored :=
  ⟨⟨h.mem_wf, h.mem_cells⟩, ⟨h.shadow_wf, h.shadow_cells⟩, h.result_reserved, h.result_err, h.anom_reserved⟩

theorem State.Stored.inv {s : State} (h : s.Stored) (rest : s.busy = false → s.Resting)
    (session : s.busy = true → s.InSession) : s.Inv :=
  ⟨h.mem.1, h.mem.2, h.shadow.1, h.shadow.2, h.result_reserved, h.result_err, h.anom_reserved, rest, session⟩

theorem State.Stored.congr {s t : State} (h : s.Stored) (hmem : t.mem = s.mem := by simp)
    (hshadow : t.shadow = s.shadow := by simp) (hresult : t.result = s.result := by simp)
    (hanom : t.anom1 = s.anom1 := by simp) : t.Stored where
  mem := hmem ▸ h.mem
  shadow := hshadow ▸ h.shadow
  result_reserved := hresult ▸ h.result_reserved
  result_err := hresult ▸ h.result_err
  anom_reserved := hanom ▸ h.anom_reserved

theorem State.Stored.setMem {s : State} (h : s.Stored) {m : Memory} (hm : m.Within bufferCell) : (s.setMem m).Stored :=
  { h with mem := hm }

theorem State.Stored.setShadow {s : State} (h : s.Stored) {m : Memory} (hm : m.Within fun a => decide (a < 47)) :
    (s.setShadow m).Stored :=
  { h with shadow := hm }

theorem Completion.code_le (err : Completion) : err.code.toNat ≤ 5 := by cases err <;> decide

/-- A completion writes registers whose reserved bits are 0 (R36, R41, R315). -/
theorem complete_stored {s : State} (h : s.Stored) (err : Completion) (anom : BitVec 45) (c : BitVec 6) :
    (complete err anom c s).Stored where
  mem := h.mem
  shadow := h.shadow
  result_reserved := resultWord_reserved s err anom c
  result_err := by rw [complete_result, resultWord_err]; exact err.code_le
  anom_reserved := by
    rw [complete_anom1]
    ext i hi
    simp

theorem frameDone_stored {s : State} (h : s.Stored) (k : Cmd) (p : List Byte) (ck : Byte) :
    (frameDone k p ck s).Stored := by
  have hfbuf := h.mem.writeFbuf (frameBytes s.cfg k p ck)
  rcases frameDone_cases k p ck s with ⟨-, e⟩ | ⟨-, -, -, e⟩ | ⟨-, -, e⟩ <;> rw [e]
  · exact complete_stored (h.setMem hfbuf) _ _ _
  · exact complete_stored (h.setMem hfbuf) _ _ _
  · exact complete_stored (h.setMem (hfbuf.writeFields _)) _ _ _

theorem holding_stored {s : State} (h : s.Stored) {k : Cmd} {f : List Byte} (hf : f.length ≤ 47) :
    (s.holding k f).Stored :=
  (h.setShadow (h.shadow.writeBytes (a := 0) (vs := f) fun b _ hu => by simp; omega)).congr

/-- A host access stores only where the host may, and an issue only its frame. -/
theorem hostAccess_stored {s u : State} {h : HostAccess} (hs : s.Stored) (e : hostAccess h s = .next u) :
    u.Stored := by
  rcases hostAccess_cases h s with e' | ⟨_, v, _, _, e'⟩ | ⟨a, v, _, _, e'⟩ <;> rw [e'] at e <;> cases e
  · exact hs
  · rcases issue_cases (cmdOp v).toNat (cmdSel v) s
      with ⟨-, e⟩ | ⟨-, e⟩ | ⟨-, -, e⟩ | ⟨k, -, -, -, e⟩ | ⟨-, -, -, e⟩ <;> rw [e]
    · exact hs
    · exact hs.congr
    · exact hs.congr
    · exact (hs.setMem (hs.mem.writeFbuf (encodeFrame s.cfg k (s.serialize k)))).congr
    · exact hs.congr
  · have hmem : (s.writeWord (wordIndex a) v).mem.Within bufferCell := by
      rw [State.writeWord_mem]
      split
      · exact hs.mem.storeWord _ v
      · exact hs.mem
    exact (hs.setMem hmem).congr

theorem runReceived_stored {s t : State} (hs : s.Stored) (h : runReceived s = .next t) : t.Stored := by
  obtain ⟨k, p, ck, -, hp, -, rfl⟩ := runReceived_eq_next h
  split
  · have := k.flen_bounds
    exact frameDone_stored (holding_stored hs (by simp [frameBytes, hp, Cmd.flen] at *; omega)) k p ck
  · exact hs

theorem rxByteDone_stored {s t : State} (hs : s.Stored) (h : rxByteDone s = .next t) : t.Stored := by
  rcases rxByteDone_cases s with ⟨-, -, e⟩ | ⟨k, -, -, e⟩ | ⟨-, -, e⟩ | ⟨-, -, e⟩ <;> rw [e] at h
  · cases h; exact complete_stored hs _ _ _
  · cases h; exact hs.congr
  · exact runReceived_stored hs h
  · cases h; exact hs.congr

theorem acked_stored {s : State} (hs : s.Stored) : s.acked.Stored := by
  unfold State.acked
  split <;> exact hs.congr

theorem sample_stored {s : State} (hs : s.Stored) (ho : s.offset.toNat < 47) (l : Lines) :
    (sample l s).Stored := by
  rcases sample_cases l s with ⟨-, v, e⟩ | ⟨-, -, v, e⟩ <;> rw [e]
  · exact hs.congr
  · exact (hs.setShadow (hs.shadow.write (by simpa using ho) v)).congr

/-- Every tick of a session keeps what the block stores well formed. -/
theorem Moves.stored {l : Lines} {s t : State} (h : Moves l s t) (hs : s.Stored) (ho : s.offset.toNat < 47) :
    t.Stored := by
  cases h with
  | nowhere => exact hs
  | expire => exact complete_stored hs _ _ _
  | frameSent => exact complete_stored hs _ _ _
  | sampled => exact sample_stored (s := s.setCnt 0) hs.congr ho l
  | byteDone _ _ _ _ h => exact rxByteDone_stored (acked_stored hs) h
  | _ => exact hs.congr

/-! The session through its own tick -/

theorem State.FrameKnown.offset_lt {s : State} (h : s.FrameKnown) : s.offset.toNat < 47 := by
  obtain ⟨hoffset, -, -⟩ | ⟨k, -, -, -, ho, -⟩ := h
  · simp [hoffset]
  · have := k.flen_bounds
    omega

theorem State.InSession.offset_lt {s : State} (hs : s.InSession) : s.offset.toNat < 47 := by
  obtain ⟨-, k, hk⟩ | hear := hs.role
  · have := k.flen_bounds
    have := hk.offset
    omega
  · exact hear.frame.offset_lt

/-- A completion leaves the block at rest (60_exceptions.md R315). -/
theorem complete_resting (err : Completion) (anom : BitVec 45) (c : BitVec 6) (s : State) :
    (complete err anom c s).Resting :=
  ⟨rfl, rfl, by by_cases h : err = .timeout <;> simp [h], rfl, rfl, rfl, rfl, rfl, rfl, rfl⟩

/-- Every wait of a session has a bound of at least one tick (R63). -/
theorem bound_pos {s : State}
    (hl : 1 ≤ s.tmoBound ∧ 1 ≤ s.tbitBound ∧ 1 ≤ s.tackBound ∧ 1 ≤ s.thalfBound ∧ 1 ≤ s.tackholdBound)
    (hr : s.role ≠ .none) (hh : s.hs ≠ .timedOut) : 0 < s.bound := by
  obtain ⟨htmo, htbit, htack, hthalf, htackhold⟩ := hl
  unfold State.bound
  cases hrole : s.role with
  | none => exact absurd hrole hr
  | sender => rcases HS.cases_of_ne hh with hh | hh | hh | hh <;> rw [hh] <;> assumption
  | receiver =>
    rcases HS.cases_of_ne hh with hh | hh | hh | hh <;> rw [hh]
    case inr.inr.inr => cases s.ph <;> assumption
    all_goals assumption
  | observer => rcases HS.cases_of_ne hh with hh | hh | hh | hh <;> rw [hh] <;> assumption

/-- A session whose wait has ended is in order again when its own record and its lines are: the next wait starts at 0,
below its bound. -/
theorem State.InSession.of_waitEnds {s t : State} (hs : s.InSession)
    (hrec : (t.role = .sender ∧ ∃ k, t.Sending k) ∨ t.Hearing) (hoe : t.oe = t.outputs)
    (hhs : t.hs ≠ .timedOut) (hdone : t.done = s.done) (hrole : t.role = s.role)
    (hlatched : t.latched = s.latched) (hcnt : t.cnt = 0) : t.InSession := by
  have hl : 1 ≤ t.tmoBound ∧ 1 ≤ t.tbitBound ∧ 1 ≤ t.tackBound ∧ 1 ≤ t.thalfBound ∧ 1 ≤ t.tackholdBound := by
    simpa only [State.tmoBound, State.tbitBound, State.tackBound, State.thalfBound, State.tackholdBound, hlatched]
      using hs.latched
  refine ⟨hdone.trans hs.done, hhs, hl, ?_, hoe, hrec⟩
  rw [hcnt]
  exact bound_pos hl (hrole ▸ hs.role_ne_none) hhs

section fbuf

variable (s : State) (i : Nat)

/-! FBUF after the updates of a session that leave the byte arrays -/

@[simp] theorem State.setPlace_fbuf (h : HS) (b : BitVec 3) (p : Bool) : (s.setPlace h b p).fbuf i = s.fbuf i := rfl
@[simp] theorem State.setCnt_fbuf (c : BitVec 32) : (s.setCnt c).fbuf i = s.fbuf i := rfl
@[simp] theorem State.setOffset_fbuf (n : BitVec 6) : (s.setOffset n).fbuf i = s.fbuf i := rfl
@[simp] theorem State.setOe_fbuf (l : Lines) : (s.setOe l).fbuf i = s.fbuf i := rfl
@[simp] theorem startByte_fbuf (b : Byte) : (startByte b s).fbuf i = s.fbuf i := rfl
@[simp] theorem State.closeTick_fbuf (l : Lines) (r : List TickInput) (n : Nat) (d : Option Word) :
    (s.closeTick l r n d).fbuf i = s.fbuf i := rfl

end fbuf

/-- A SEND session with its frame, moved to another place of it. -/
theorem State.Sending.move {s t : State} {k : Cmd} (h : s.Sending k) (hoffset : t.offset.toNat < k.flen)
    (hfirst : t.hs = .idle ∨ t.hs = .start → t.offset = 0 ∧ t.bitn = 0 ∧ t.ph = false)
    (hbyte : t.hs = .bit ∨ t.hs = .ack → t.shreg = t.fbuf t.offset.toNat) (hlast : t.hs = .ack → t.bitn = 7)
    (hop : t.op = s.op) (hcidx : t.cidx = s.cidx) (hlatched : t.latched = s.latched)
    (hflen : t.flen = s.flen) : t.Sending k where
  op := hop.trans h.op
  cidx := hcidx.trans h.cidx
  sel := hlatched ▸ h.sel
  flen := hflen.trans h.flen
  offset := hoffset
  first := hfirst
  byte := hbyte
  last := hlast

/-- A receiving session moved to another place of its frame. -/
theorem State.Hearing.move {s t : State} (h : s.Hearing) (hframe : t.FrameKnown)
    (hfirst : t.hs = .idle ∨ t.hs = .start → t.offset = 0 ∧ t.bitn = 0) (hphase : t.ph = true → t.hs = .ack)
    (hlast : t.hs = .ack → t.bitn = 7) (hrole : t.role = s.role) (hop : t.op = s.op)
    (hlatched : t.latched = s.latched) : t.Hearing where
  op := by rw [hrole, hop, hlatched]; exact h.op
  frame := hframe
  first := hfirst
  phase := hphase
  last := hlast

/-- What is known of the frame stays so within a byte. -/
theorem State.FrameKnown.keep {s t : State} (h : s.FrameKnown) (hoffset : t.offset = s.offset := by simp)
    (hflen : t.flen = s.flen := by simp) (hcidx : t.cidx = s.cidx := by simp) (hcfg : t.cfg = s.cfg := by simp)
    (hop : t.op = s.op := by simp) (hlatched : t.latched = s.latched := by simp)
    (hshadow : t.shadow = s.shadow := by simp) : t.FrameKnown :=
  h.congr hoffset hflen hcidx hcfg hop hlatched hshadow

/-- A session that differs in nothing but its counter, still below the bound, and in what no session reads. -/
theorem State.InSession.keep {s t : State} (hs : s.InSession) (hcnt : t.cnt.toNat < s.bound)
    (hdone : t.done = s.done := by simp) (hrole : t.role = s.role := by simp) (hhs : t.hs = s.hs := by simp)
    (hbitn : t.bitn = s.bitn := by simp) (hph : t.ph = s.ph := by simp) (hoffset : t.offset = s.offset := by simp)
    (hflen : t.flen = s.flen := by simp) (hcidx : t.cidx = s.cidx := by simp) (hcfg : t.cfg = s.cfg := by simp)
    (hop : t.op = s.op := by simp) (hlatched : t.latched = s.latched := by simp)
    (hshreg : t.shreg = s.shreg := by simp) (hshadow : t.shadow = s.shadow := by simp) (hoe : t.oe = s.oe := by simp)
    (hfbuf : ∀ i, t.fbuf i = s.fbuf i := by simp) : t.InSession where
  done := hdone.trans hs.done
  hs := hhs ▸ hs.hs
  latched := by simpa only [State.tmoBound, State.tbitBound, State.tackBound, State.thalfBound, State.tackholdBound,
    hlatched] using hs.latched
  cnt := by
    simpa only [State.bound, State.tmoBound, State.tbitBound, State.tackBound, State.thalfBound, State.tackholdBound,
      hrole, hhs, hph, hlatched] using hcnt
  oe := by simpa only [State.outputs, hrole, hhs, hph, hshreg, hbitn, hoe] using hs.oe
  role := by
    obtain ⟨hr, k, hk⟩ | hear := hs.role
    · refine .inl ⟨hrole.trans hr, k, ?_⟩
      exact hk.move (by rw [hoffset]; exact hk.offset) (by rw [hhs, hoffset, hbitn, hph]; exact hk.first)
        (by rw [hhs, hshreg, hoffset, hfbuf]; exact hk.byte) (by rw [hhs, hbitn]; exact hk.last) hop hcidx hlatched
        hflen
    · refine .inr ?_
      exact hear.move (hear.frame.congr hoffset hflen hcidx hcfg hop hlatched hshadow)
        (by rw [hhs, hoffset, hbitn]; exact hear.first) (by rw [hhs, hph]; exact hear.phase)
        (by rw [hhs, hbitn]; exact hear.last) hrole hop hlatched

/-- A wait that goes on leaves the session in order. -/
theorem State.InSession.count {s : State} (hs : s.InSession) (h : s.cnt.toNat + 1 < s.bound) :
    (s.setCnt (s.cnt + 1)).InSession :=
  hs.keep (by rw [State.setCnt_cnt, cnt_succ h (bound_le s)]; exact h)

/-- A SEND session whose wait has ended, at its new place. -/
theorem State.InSession.sender_move {s t : State} {k : Cmd} (hs : s.InSession) (hr : s.role = .sender)
    (hk : s.Sending k) (hoffset : t.offset.toNat < k.flen)
    (hfirst : t.hs = .idle ∨ t.hs = .start → t.offset = 0 ∧ t.bitn = 0 ∧ t.ph = false)
    (hbyte : t.hs = .bit ∨ t.hs = .ack → t.shreg = t.fbuf t.offset.toNat) (hlast : t.hs = .ack → t.bitn = 7)
    (hoe : t.oe = t.outputs) (hhs : t.hs ≠ .timedOut := by simp) (hdone : t.done = s.done := by simp)
    (hrole : t.role = s.role := by simp) (hlatched : t.latched = s.latched := by simp) (hcnt : t.cnt = 0 := by simp)
    (hop : t.op = s.op := by simp) (hcidx : t.cidx = s.cidx := by simp) (hflen : t.flen = s.flen := by simp) :
    t.InSession :=
  hs.of_waitEnds (.inl ⟨hrole.trans hr, k, hk.move hoffset hfirst hbyte hlast hop hcidx hlatched hflen⟩) hoe hhs hdone
    hrole hlatched hcnt

/-- A receiving session whose wait has ended, at its new place. -/
theorem State.InSession.hearing_move {s t : State} (hs : s.InSession) (hear : s.Hearing) (hframe : t.FrameKnown)
    (hfirst : t.hs = .idle ∨ t.hs = .start → t.offset = 0 ∧ t.bitn = 0) (hphase : t.ph = true → t.hs = .ack)
    (hlast : t.hs = .ack → t.bitn = 7) (hoe : t.oe = t.outputs) (hhs : t.hs ≠ .timedOut := by simp)
    (hdone : t.done = s.done := by simp) (hrole : t.role = s.role := by simp)
    (hlatched : t.latched = s.latched := by simp) (hcnt : t.cnt = 0 := by simp) (hop : t.op = s.op := by simp) :
    t.InSession :=
  hs.of_waitEnds (.inr (hear.move hframe hfirst hphase hlast hrole hop hlatched)) hoe hhs hdone hrole hlatched hcnt

theorem State.Hearing.ph_of_ne {s : State} (hear : s.Hearing) (hh : s.hs ≠ .ack) : s.ph = false := by
  cases hp : s.ph with
  | false => rfl
  | true => exact absurd (hear.phase hp) hh

/-- A receiving session drives no line outside its acknowledge (R172). -/
theorem State.Hearing.outputs_eq {s : State} (hear : s.Hearing) (hh : s.hs ≠ .ack) : s.outputs = Lines.released := by
  unfold State.outputs
  obtain ⟨hr, -⟩ | ⟨hr, -⟩ := hear.op <;> rw [hr]
  cases hhs : s.hs with
  | ack => exact absurd hhs hh
  | _ => rfl

/-- A sample keeps the frame known and goes to the next cell of the byte, or to its acknowledge (R162). -/
theorem sample_inSession {l : Lines} {s : State} (hs : s.InSession) (hear : s.Hearing)
    (hh : s.hs = .start ∨ s.hs = .bit) : (sample l (s.setCnt 0)).InSession := by
  have hne : s.hs ≠ .ack := by rcases hh with hh | hh <;> simp [hh]
  have hph := hear.ph_of_ne hne
  have hoe : s.oe = Lines.released := hs.oe.trans (hear.outputs_eq hne)
  rcases sample_cases l (s.setCnt 0) with ⟨-, v, e⟩ | ⟨-, hb, v, e⟩ <;> rw [e]
  · have hframe : (((s.setCnt 0).setShreg v).setPlace .bit (s.bitn + 1) s.ph).FrameKnown := hear.frame.keep
    refine hs.hearing_move hear hframe (by simp) (by simp [hph]) (by simp) ?_
    obtain ⟨hr, -⟩ | ⟨hr, -⟩ := hear.op <;> simp [State.outputs, hr, hoe]
  · have hframe : (((s.setCnt 0).setShreg v).setShadow (s.shadow.write s.offset.toNat v)).FrameKnown := by
      obtain hnone | ⟨k, hcidx, hflen, hpos, ho, hlookup⟩ := hear.frame
      · exact .inl (by simpa using hnone)
      · have h0 : (0 : Nat) ≠ s.offset.toNat := by omega
        exact .inr ⟨k, by simpa using hcidx, by simpa using hflen, by simpa using hpos, by simpa using ho,
          by simpa [h0] using hlookup⟩
    refine hs.hearing_move hear hframe.keep (by simp) (by simp) (by simpa using hb) ?_
    obtain ⟨hr, -⟩ | ⟨hr, -⟩ := hear.op <;> simp [State.outputs, hr, hoe, Lines.released]

/-- The byte done of a byte inside the frame: the first cell of the next one follows (R166, R171). -/
theorem nextByte_inSession {s t : State} (hs : s.InSession) (hear : s.Hearing) (hframe : t.FrameKnown)
    (hoe : t.oe = Lines.released) (hhs : t.hs = .bit := by simp) (hph : t.ph = false := by simp)
    (hrole : t.role = s.role := by simp) (hop : t.op = s.op := by simp) (hdone : t.done = s.done := by simp)
    (hlatched : t.latched = s.latched := by simp) (hcnt : t.cnt = 0 := by simp) : t.InSession := by
  refine hs.hearing_move hear hframe (by simp [hhs]) (by simp [hph]) (by simp [hhs]) ?_ (by simp [hhs])
    hdone hrole hlatched hcnt hop
  rw [hoe, State.outputs, hhs, hrole]
  obtain ⟨hr, -⟩ | ⟨hr, -⟩ := hear.op <;> rw [hr]

/-- Where the byte done runs, a receiving session drives no line (R163, R164). -/
theorem acked_oe {s : State} (hs : s.InSession) (hear : s.Hearing) (hh : s.hs = .ack) :
    s.acked.oe = Lines.released := by
  obtain ⟨hr, -⟩ | ⟨hr, -⟩ := hear.op <;> simp [State.acked, hs.oe, State.outputs, hr, hh, Lines.released]

@[simp] theorem State.acked_done (s : State) : s.acked.done = s.done := by unfold State.acked; split <;> rfl

/-- The frame that a command byte announces is known from its byte done on (R166, R204). -/
theorem frameKnown_of_lookup {s : State} {k : Cmd}
    (h : lookup s.cfg s.op s.latched.sel s.latched.pf (s.shadow.read 0) = some k) :
    (((s.setFrame (some k) (BitVec.ofNat 6 k.flen)).setOffset 1).setPlace .bit 0 false).FrameKnown := by
  have hk := k.flen_bounds
  refine .inr ⟨k, by simp, by simp, by simp, by simp; omega, ?_⟩
  simpa using h

/-- Within a frame the next byte is still one of it (R166). -/
theorem frameKnown_succ {s : State} (h : s.FrameKnown) (h0 : s.offset ≠ 0) (hl : s.offset + 1 ≠ s.flen) :
    ((s.setOffset (s.offset + 1)).setPlace .bit 0 false).FrameKnown := by
  obtain ⟨hoffset, -, -⟩ | ⟨k, hcidx, hflen, -, ho, hlookup⟩ := h
  · exact absurd hoffset h0
  · obtain ⟨hsucc, hlt⟩ := offset_succ hflen ho hl
    refine .inr ⟨k, by simpa using hcidx, by simpa using hflen, ?_, ?_, by simpa using hlookup⟩ <;>
      rw [State.setPlace_offset, State.setOffset_offset, hsucc] <;> omega

/-- A byte done that ends no session begins the next byte of it (R166). -/
theorem rxByteDone_inSession {s t : State} (hs : s.InSession) (hear : s.Hearing) (hb : s.busy = true)
    (hh : s.hs = .ack) (h : rxByteDone s.acked = .next t) (ht : t.busy = true) : t.InSession := by
  have hoe := acked_oe hs hear hh
  have hframe : s.acked.FrameKnown := hear.frame.keep
  rcases rxByteDone_cases s.acked with ⟨-, -, e⟩ | ⟨k, -, hk, e⟩ | ⟨-, -, e⟩ | ⟨h0, hl, e⟩ <;> rw [e] at h
  · cases h
    simp at ht
  · cases h
    exact nextByte_inSession hs hear (frameKnown_of_lookup hk) (by simpa using hoe)
  · have hr : s.acked.receiving = true := by
      simpa only [State.receiving, State.acked_busy, State.acked_op] using hear.receiving hb
    rw [runReceived_busy hr h] at ht
    cases ht
  · cases h
    exact nextByte_inSession hs hear (frameKnown_succ hframe h0 hl) (by simpa using hoe)

/-- A tick of a session that goes on leaves it in order. -/
theorem Moves.inSession {l : Lines} {s t : State} (h : Moves l s t) (hb : s.busy = true) (hs : s.InSession)
    (ht : t.busy = true) : t.InSession := by
  have hoe := hs.oe
  cases h with
  | nowhere h => exact absurd h (not_or.mpr ⟨hs.role_ne_none, hs.hs⟩)
  | count h => exact hs.count h
  | expire => simp at ht
  | pullSync hr hh =>
    obtain ⟨k, hk⟩ := hs.sending_of_role hr
    refine hs.sender_move hr hk (by simpa using hk.offset) (by simpa using hk.first (.inl hh)) (by simp) (by simp) ?_
    simp [State.outputs, hr, hh, hoe, Lines.released]
  | firstByte hr hh =>
    obtain ⟨k, hk⟩ := hs.sending_of_role hr
    refine hs.sender_move hr hk (by simpa using hk.offset) (by simp) (by simp) (by simp) ?_
    simp [State.outputs, hr, hh, hoe]
  | clockLow hr hh hp =>
    obtain ⟨k, hk⟩ := hs.sending_of_role hr
    refine hs.sender_move hr hk (by simpa using hk.offset) (by simp) (by simpa using hk.byte (.inl hh)) (by simp) ?_
    simp [State.outputs, hr, hh, hoe]
  | nextCell hr hh hp _ hb7 =>
    obtain ⟨k, hk⟩ := hs.sending_of_role hr
    have hmod : (s.bitn.toNat + 1) % 8 = s.bitn.toNat + 1 := by omega
    refine hs.sender_move hr hk (by simpa using hk.offset) (by simp) (by simpa using hk.byte (.inl hh)) (by simp) ?_
    simp [State.outputs, hr, hh, hoe, hmod]
  | lastCell hr hh hp _ hb7 =>
    obtain ⟨k, hk⟩ := hs.sending_of_role hr
    refine hs.sender_move hr hk (by simpa using hk.offset) (by simp) (by simpa using hk.byte (.inl hh))
      (by simp [hb7]) ?_
    simp [State.outputs, hr, hh, hoe]
  | ackLow hr hh hp =>
    rcases hr with hr | hr
    · obtain ⟨k, hk⟩ := hs.sending_of_role hr
      refine hs.sender_move hr hk (by simpa using hk.offset) (by simp) (by simpa using hk.byte (.inr hh))
        (by simpa using hk.last hh) ?_
      simp [State.outputs, hr, hh, hoe]
    · have hear := hs.hearing_of_role (.inr hr)
      refine hs.hearing_move hear hear.frame.keep (by simp) (by simp) (by simpa using hear.last hh) ?_
      simp [State.outputs, hr, hoe]
  | frameSent => simp at ht
  | nextSent hr hh hp _ hl =>
    obtain ⟨k, hk⟩ := hs.sending_of_role hr
    obtain ⟨hsucc, hlt⟩ := offset_succ hk.flen hk.offset hl
    refine hs.sender_move hr hk (by rw [startByte_offset, State.setOffset_offset, hsucc]; exact hlt) (by simp) ?_
      (by simp) ?_
    · simp only [startByte_shreg, startByte_fbuf, startByte_offset, State.setOffset_offset, State.setOffset_fbuf,
        State.setCnt_fbuf, hsucc, implies_true]
    · simp [State.outputs, hr, hh, hoe]
  | started hr hh =>
    have hear := hs.hearing_of_role hr
    have hne : s.hs ≠ .ack := by simp [hh]
    refine hs.hearing_move hear hear.frame.keep (by simpa using (hear.first (.inl hh)).1)
      (by simp [hear.ph_of_ne hne]) (by simp) ?_
    rcases hr with hr | hr <;> simp [State.outputs, hr, hh, hoe]
  | sampled hr hh => exact sample_inSession hs (hs.hearing_of_role hr) hh
  | pullAck hr hh hp =>
    have hear := hs.hearing_of_role (.inl hr)
    refine hs.hearing_move hear hear.frame.keep (by simp) (by simp) (by simpa using hear.last hh) ?_
    simp [State.outputs, hr, hh, hp, hoe]
  | byteDone hr hh _ _ h =>
    exact rxByteDone_inSession hs (hs.hearing_of_role (hr.imp And.left And.left)) hb hh h ht

/-! The end of a session -/

theorem rxByteDone_end {s t : State} (h : rxByteDone s = .next t) (hb : s.busy = true) (ht : t.busy = false) :
    ∃ err anom c u, t = complete err anom c u := by
  rcases rxByteDone_cases s with ⟨-, -, e⟩ | ⟨k, -, -, e⟩ | ⟨-, -, e⟩ | ⟨-, -, e⟩ <;> rw [e] at h
  · cases h; exact ⟨_, _, _, _, rfl⟩
  · cases h; simp [hb] at ht
  · obtain ⟨k, p, ck, -, -, -, rfl⟩ := runReceived_eq_next h
    split at ht
    · next hr =>
      rw [if_pos hr]
      obtain ⟨err, anom, m, e⟩ := frameDone_eq_complete k p ck (s.holding k (frameBytes s.cfg k p ck))
      exact ⟨_, _, _, _, e⟩
    · simp [hb] at ht
  · cases h; simp [hb] at ht

/-- A session ends by a completion and in no other way (60_exceptions.md R315). -/
theorem Moves.end_complete {l : Lines} {s t : State} (h : Moves l s t) (hb : s.busy = true) (ht : t.busy = false) :
    ∃ err anom c u, t = complete err anom c u := by
  cases h with
  | expire => exact ⟨_, _, _, _, rfl⟩
  | frameSent => exact ⟨_, _, _, _, rfl⟩
  | sampled =>
    rcases sample_cases l (s.setCnt 0) with ⟨-, v, e⟩ | ⟨-, -, v, e⟩ <;> rw [e] at ht <;> simp [hb] at ht
  | byteDone _ _ _ _ h => exact rxByteDone_end h (by simpa using hb) ht
  | _ => simp [hb] at ht

/-! The host's part of a tick -/

theorem State.Resting.congr {s t : State} (h : s.Resting) (hop : t.op = s.op := by simp)
    (hrole : t.role = s.role := by simp) (hhs : t.hs = s.hs := by simp) (hbitn : t.bitn = s.bitn := by simp)
    (hph : t.ph = s.ph := by simp) (hcnt : t.cnt = s.cnt := by simp) (hoffset : t.offset = s.offset := by simp)
    (hflen : t.flen = s.flen := by simp) (hcidx : t.cidx = s.cidx := by simp) (hoe : t.oe = s.oe := by simp) :
    t.Resting where
  op := hop.trans h.op
  role := hrole.trans h.role
  hs := hhs ▸ h.hs
  bitn := hbitn.trans h.bitn
  ph := hph.trans h.ph
  cnt := hcnt.trans h.cnt
  offset := hoffset.trans h.offset
  flen := hflen.trans h.flen
  cidx := hcidx.trans h.cidx
  oe := hoe.trans h.oe

/-- Every parameter latched at an issue is at least 1 (R63). -/
theorem latch_pos (s : State) (sel : BitVec 4) :
    1 ≤ (s.latch sel).tmo.toNat ∧ 1 ≤ (s.latch sel).tbit.toNat ∧ 1 ≤ (s.latch sel).tack.toNat ∧
      1 ≤ (s.latch sel).thalf.toNat ∧ 1 ≤ (s.latch sel).tackhold.toNat := by
  have hpos {n : Nat} (hn : 0 < n) (v : BitVec n) : 1 ≤ (eff v).toNat := by rw [eff_toNat hn]; omega
  exact ⟨hpos (by decide) _, hpos (by decide) _, hpos (by decide) _, hpos (by decide) _, hpos (by decide) _⟩

/-- A session that has just been issued is in order: its first wait starts, and it drives no line (R281). -/
theorem issued_inSession {s t : State} {sel : BitVec 4} (hs : s.Resting)
    (hrec : (t.role = .sender ∧ ∃ k, t.Sending k) ∨ t.Hearing) (hrole : t.role ≠ .none := by simp)
    (hdone : t.done = false := by simp) (hhs : t.hs = .idle := by simp) (hcnt : t.cnt = 0 := by simp)
    (hoe : t.oe = s.oe := by simp) (hlatched : t.latched = s.latch sel := by simp) : t.InSession := by
  have hl : 1 ≤ t.tmoBound ∧ 1 ≤ t.tbitBound ∧ 1 ≤ t.tackBound ∧ 1 ≤ t.thalfBound ∧ 1 ≤ t.tackholdBound := by
    simpa only [State.tmoBound, State.tbitBound, State.tackBound, State.thalfBound, State.tackholdBound, hlatched]
      using latch_pos s sel
  refine ⟨hdone, by simp [hhs], hl, ?_, ?_, hrec⟩
  · rw [hcnt]
    exact bound_pos hl hrole (by simp [hhs])
  · rw [hoe, hs.oe, State.outputs, hhs]
    cases t.role <;> rfl

theorem acceptSend_sending (sel : BitVec 4) {k : Cmd} (hsel : sel = k.index) (s : State) :
    (acceptSend sel k s).Sending k where
  op := rfl
  cidx := rfl
  sel := hsel
  flen := rfl
  offset := by have := k.flen_bounds; simp; omega
  first := fun _ => ⟨rfl, rfl, rfl⟩
  byte := by simp
  last := by simp

theorem acceptReceive_hearing {sel : BitVec 4} (hsel : sel.toNat < 12) (s : State) : (acceptReceive sel s).Hearing where
  op := .inl ⟨rfl, rfl, hsel⟩
  frame := .inl ⟨rfl, rfl, rfl⟩
  first := fun _ => ⟨rfl, rfl⟩
  phase := by simp
  last := by simp

theorem acceptListen_hearing (sel : BitVec 4) (s : State) : (acceptListen sel s).Hearing where
  op := .inr ⟨rfl, rfl⟩
  frame := .inl ⟨rfl, rfl, rfl⟩
  first := fun _ => ⟨rfl, rfl⟩
  phase := by simp
  last := by simp

/-- An issue at rest opens a session in order, or leaves the block at rest (43_host_ops.md R280 to R282). -/
theorem issue_of_resting {s : State} (hb : s.busy = false) (hs : s.Resting) (op : Nat) (sel : BitVec 4) :
    ((issue op sel s).busy = false ∧ (issue op sel s).Resting) ∨
      ((issue op sel s).busy = true ∧ (issue op sel s).InSession) := by
  rcases issue_cases op sel s with ⟨-, e⟩ | ⟨-, e⟩ | ⟨-, -, e⟩ | ⟨k, -, -, hsel, e⟩ | ⟨-, -, hsel, e⟩ <;> rw [e]
  · exact .inl ⟨hb, hs⟩
  · exact .inl ⟨hb, hs.congr⟩
  · exact .inr ⟨rfl, issued_inSession (sel := sel) hs (.inr (acceptListen_hearing sel s))⟩
  · exact .inr ⟨rfl, issued_inSession (sel := sel) hs (.inl ⟨rfl, k, acceptSend_sending sel hsel s⟩)⟩
  · exact .inr ⟨rfl, issued_inSession (sel := sel) hs (.inr (acceptReceive_hearing hsel s))⟩

/-- A host access keeps the invariant. -/
theorem hostAccess_inv {h : HostAccess} {s u : State} (hinv : s.Inv) (e : hostAccess h s = .next u) : u.Inv := by
  have hstored := hostAccess_stored hinv.stored e
  cases hb : s.busy with
  | true =>
    have hub : u.busy = true := (hostAccess_of_busy hb e).busy ▸ hb
    exact hstored.inv (by simp [hub]) fun _ => hostAccess_inSession hb (hinv.session hb) e
  | false =>
    have hrest := hinv.rest hb
    suffices h : (u.busy = false ∧ u.Resting) ∨ (u.busy = true ∧ u.InSession) by
      rcases h with ⟨hub, h⟩ | ⟨hub, h⟩
      · exact hstored.inv (fun _ => h) (by simp [hub])
      · exact hstored.inv (by simp [hub]) fun _ => h
    rcases hostAccess_cases h s with e' | ⟨_, v, _, _, e'⟩ | ⟨a, v, _, _, e'⟩ <;> rw [e'] at e <;> cases e
    · exact .inl ⟨hb, hrest⟩
    · exact issue_of_resting hb hrest _ _
    · exact .inl ⟨by simp [hb], hrest.congr⟩

/-! The whole tick -/

/-- A tick of a session keeps the invariant. -/
theorem Moves.inv {l : Lines} {s t : State} (h : Moves l s t) (hb : s.busy = true) (hinv : s.Inv) : t.Inv := by
  have hs := hinv.session hb
  refine (h.stored hinv.stored hs.offset_lt).inv (fun ht => ?_) (h.inSession hb hs)
  obtain ⟨err, anom, c, u, rfl⟩ := h.end_complete hb ht
  exact complete_resting err anom c u

/-- The end of a tick touches nothing that the invariant speaks of. -/
theorem closeTick_inv {s : State} (hinv : s.Inv) (l : Lines) (r : List TickInput) (n : Nat) (d : Option Word) :
    (s.closeTick l r n d).Inv := by
  refine hinv.stored.congr.inv (fun hb => (hinv.rest hb).congr) fun hb => ?_
  have hs := hinv.session hb
  exact hs.keep hs.cnt

theorem reset_stored : State.reset.Stored :=
  ⟨Memory.within_nil _, Memory.within_nil _, by decide, by decide, by decide⟩

/-- A state with the elements of the reset state is in the invariant, whatever its configuration and inputs. -/
theorem reset_inv (c : Config) (r : List TickInput) (n : Nat) :
    ({ State.reset with cfg := c, inputs := r, tick := n } : State).Inv := by
  refine State.Stored.inv (reset_stored.congr rfl rfl rfl rfl) (fun _ => ?_) fun h => absurd h Bool.false_ne_true
  exact ⟨rfl, rfl, .inl rfl, rfl, rfl, rfl, rfl, rfl, rfl, rfl⟩

/-- Settles O45: it is the reset state with its own configuration and no inputs to come. -/
theorem invariantHoldsAtReset : Obligations.InvariantHoldsAtReset := reset_inv Config.atReset [] 0

/-- Settles O46: a reset tick ends in the reset state; in any other one the host access, the session's own tick and the
end of the tick each keep the invariant. -/
theorem stepKeepsTheInvariant : Obligations.StepKeepsTheInvariant := by
  intro s t hinv h
  obtain ⟨-, ⟨-, rfl⟩ | ⟨-, u, v, hu, hv, rfl⟩⟩ := step_eq_next h
  · exact reset_inv s.cfg s.inputs.tail (s.tick + 1)
  have huinv : u.Inv := hostAccess_inv hinv hu
  split at hv
  · next hb =>
    have hub : u.busy = true := (hostAccess_of_busy hb hu).busy ▸ hb
    exact closeTick_inv ((handshake_moves hv).inv hub huinv) _ _ _ _
  · cases hv
    exact closeTick_inv huinv _ _ _ _

end Sys2Proof.Machine
end

section
/-! The session and the host's side of the block in one tick: a tick of a session does not
look at the host's registers (10_state.md R63, 70_reset_and_hazards.md R355), and the session's end sets DONE
(20_memory.md R85(b), 60_exceptions.md R320). -/

namespace Sys2Proof.Machine

/-! States that agree but for the host's side -/

/-- The state without what the host writes or the session only leaves for it: the registers, the flags, the byte arrays
and the model's own inputs, tick count and read word. -/
def State.sessionView (s : State) : State :=
  { s with
    ie := false, pfSel := false, done := false, rej := false, tmo := 0, timing0 := 0, timing1 := 0, mem := [],
    inputs := [], tick := 0, hRdata := none }

/-- Two states of one block with one session: all that a tick of the session reads is the same in both. -/
structure State.Alike (s u : State) : Prop where
  view : s.sessionView = u.sessionView
  fbuf : ∀ i, s.fbuf i = u.fbuf i

theorem State.SameSession.alike {s u : State} (h : s.SameSession u) (hcfg : s.cfg = u.cfg) : s.Alike u where
  view := by
    simp only [State.sessionView, h.result, h.anom0, h.anom1, h.busy, h.op, h.role, h.hs, h.bitn, h.ph, h.cnt, h.offset,
      h.flen, h.cidx, h.shreg, h.shadow, h.latched, h.oe, h.prev, hcfg]
  fbuf := h.fbuf

/-- What a function reads of the session alone is the same in both. -/
theorem State.Alike.eq_of_view {α : Type} {s u : State} (h : s.Alike u) {f : State → α}
    (hf : ∀ s : State, f s = f s.sessionView) : f s = f u := by
  rw [hf s, hf u, h.view]

theorem State.Alike.sameSession {s u : State} (h : s.Alike u) : s.SameSession u where
  busy := h.eq_of_view (f := State.busy) fun _ => rfl
  op := h.eq_of_view (f := State.op) fun _ => rfl
  role := h.eq_of_view (f := State.role) fun _ => rfl
  hs := h.eq_of_view (f := State.hs) fun _ => rfl
  bitn := h.eq_of_view (f := State.bitn) fun _ => rfl
  ph := h.eq_of_view (f := State.ph) fun _ => rfl
  cnt := h.eq_of_view (f := State.cnt) fun _ => rfl
  offset := h.eq_of_view (f := State.offset) fun _ => rfl
  flen := h.eq_of_view (f := State.flen) fun _ => rfl
  cidx := h.eq_of_view (f := State.cidx) fun _ => rfl
  shreg := h.eq_of_view (f := State.shreg) fun _ => rfl
  shadow := h.eq_of_view (f := State.shadow) fun _ => rfl
  latched := h.eq_of_view (f := State.latched) fun _ => rfl
  oe := h.eq_of_view (f := State.oe) fun _ => rfl
  prev := h.eq_of_view (f := State.prev) fun _ => rfl
  result := h.eq_of_view (f := State.result) fun _ => rfl
  anom0 := h.eq_of_view (f := State.anom0) fun _ => rfl
  anom1 := h.eq_of_view (f := State.anom1) fun _ => rfl
  fbuf := h.fbuf

theorem State.Alike.cfg {s u : State} (h : s.Alike u) : s.cfg = u.cfg := h.eq_of_view (f := State.cfg) fun _ => rfl

/-- An update of the session alone keeps two states alike. -/
theorem State.Alike.map {s u : State} (h : s.Alike u) (f : State → State)
    (hview : ∀ s : State, (f s).sessionView = (f s.sessionView).sessionView := by intro _; rfl)
    (hfbuf : ∀ (s : State) i, (f s).fbuf i = s.fbuf i := by intro _ _; rfl) : (f s).Alike (f u) :=
  ⟨by rw [hview s, hview u, h.view], fun i => by rw [hfbuf, hfbuf, h.fbuf]⟩

theorem State.Alike.startByte {s u : State} (h : s.Alike u) {b b' : Byte} (hb : b = b') :
    (startByte b s).Alike (startByte b' u) := by
  subst hb
  exact h.map (Machine.startByte b)

/-- The same frame in FBUF keeps two states alike. -/
theorem State.Alike.writeFbuf {s u : State} (h : s.Alike u) (f : List Byte) :
    (s.setMem (s.mem.writeFbuf f)).Alike (u.setMem (u.mem.writeFbuf f)) := by
  refine ⟨h.view, fun i => ?_⟩
  simp only [State.fbuf, State.setMem_mem, Memory.read_writeFbuf]
  split
  · rw [if_pos (by simp; omega), if_pos (by simp; omega)]
  · rfl

/-- FBUF is unchanged by the values of FIELD. -/
theorem fbuf_writeFields (s : State) (m : Memory) (fv : List Byte) (i : Nat) :
    (s.setMem (m.writeFields fv)).fbuf i = (s.setMem m).fbuf i := by
  simp only [State.fbuf, State.setMem_mem, Memory.read_writeFields]
  split
  · rw [if_neg (by rw [fbufBase, fieldBase]; omega)]
  · rfl

theorem State.Alike.writeFields {s u : State} {m n : Memory} (h : (s.setMem m).Alike (u.setMem n)) (fv : List Byte) :
    (s.setMem (m.writeFields fv)).Alike (u.setMem (n.writeFields fv)) :=
  ⟨h.view, fun i => by rw [fbuf_writeFields, fbuf_writeFields, h.fbuf]⟩

theorem State.Alike.resultWord_eq {s u : State} (h : s.Alike u) (err : Completion) (anom : BitVec 45) (c : BitVec 6) :
    s.resultWord err anom c = u.resultWord err anom c := by
  have same := h.sameSession
  simp only [State.resultWord, State.nbytes, State.resultCmdidx, State.resultCode, State.resultAmbig, State.sent,
    same.op, same.offset, same.cidx, same.latched, same.shadow, h.fbuf]

/-- Sessions that are alike complete alike, with one RESULT. -/
theorem State.Alike.complete {s u : State} (h : s.Alike u) (err : Completion) (anom : BitVec 45) (c : BitVec 6) :
    (complete err anom c s).Alike (complete err anom c u) := by
  unfold Machine.complete
  rw [h.resultWord_eq]
  generalize (if err = .timeout then HS.timedOut else .idle) = place
  generalize u.resultWord err anom c = w
  exact h.map fun t => (t.setResult w _ _).closeSession place

/-! Operations that read and write nothing of the host's side but FBUF -/

/-- An operation that takes states that are alike to states that are alike. -/
def KeepsAlike (f : State → Result) : Prop :=
  ∀ s u t v : State, s.Alike u → f s = .next t → f u = .next v → t.Alike v

theorem keepsAlike_next {f : State → State} (h : ∀ {s u : State}, s.Alike u → (f s).Alike (f u)) :
    KeepsAlike fun s => .next (f s) := by
  intro s u t v hsu hs hu
  cases hs
  cases hu
  exact h hsu

/-- An update of the session alone, as the end of a wait. -/
theorem keepsAlike_map {f : State → State}
    (hview : ∀ s : State, (f s).sessionView = (f s.sessionView).sessionView := by intro _; rfl)
    (hfbuf : ∀ (s : State) i, (f s).fbuf i = s.fbuf i := by intro _ _; rfl) : KeepsAlike fun s => .next (f s) :=
  keepsAlike_next fun h => h.map f hview hfbuf

theorem keepsAlike_finish (err : Completion) (c : BitVec 6) : KeepsAlike (finish err c) :=
  keepsAlike_next fun h => h.complete err 0 c

theorem State.Alike.setCnt {s u : State} (h : s.Alike u) (c : BitVec 32) : (s.setCnt c).Alike (u.setCnt c) :=
  h.map fun t => t.setCnt c

theorem keepsAlike_waitFor {c : State → Bool} {n : State → Nat} {ok fail : State → Result} (hok : KeepsAlike ok)
    (hfail : KeepsAlike fail) (hc : ∀ s : State, c s = c s.sessionView) (hn : ∀ s : State, n s = n s.sessionView) :
    KeepsAlike fun s => waitFor (c s) (n s) ok fail s := by
  intro s u t v h hs hu
  simp only [waitFor, h.eq_of_view hc, h.eq_of_view hn, h.sameSession.cnt] at hs hu
  split_ifs at hs hu
  · exact hok _ _ _ _ (h.setCnt 0) hs hu
  · exact hfail _ _ _ _ h hs hu
  · cases hs
    cases hu
    exact h.setCnt _

theorem keepsAlike_holdFor {n : State → Nat} {done : State → Result} (hdone : KeepsAlike done)
    (hn : ∀ s : State, n s = n s.sessionView) : KeepsAlike fun s => holdFor (n s) done s := by
  intro s u t v h hs hu
  simp only [holdFor, h.eq_of_view hn, h.sameSession.cnt] at hs hu
  split_ifs at hs hu
  · exact hdone _ _ _ _ (h.setCnt 0) hs hu
  · cases hs
    cases hu
    exact h.setCnt _

theorem State.Alike.frameDone {s u : State} (h : s.Alike u) (k : Cmd) (p : List Byte) (ck : Byte) :
    (frameDone k p ck s).Alike (frameDone k p ck u) := by
  have same := h.sameSession
  simp only [frameDone_eq, h.cfg, same.op, same.latched]
  split_ifs
  · exact (h.writeFbuf _).complete _ _ _
  · exact (h.writeFbuf _).complete _ _ _
  · exact ((h.writeFbuf _).writeFields _).complete _ _ _

theorem keepsAlike_receiveFrame (k : Cmd) (p : List Byte) (ck : Byte) : KeepsAlike (receiveFrame k p ck) := by
  refine keepsAlike_next fun {s u} h => ?_
  rw [h.cfg, h.eq_of_view (f := State.receiving) fun _ => rfl]
  split_ifs
  · exact (h.map fun t => t.holding k _).frameDone k p ck
  · exact h

theorem keepsAlike_runReceived : KeepsAlike runReceived := by
  intro s u t v h hs hu
  unfold runReceived at hs hu
  rw [h.eq_of_view (f := State.receivedInstr) fun _ => rfl] at hs
  cases hi : u.receivedInstr with
  | error e => simp [hi] at hs
  | ok i =>
    obtain ⟨k, p, ck, rfl⟩ := receivedInstr_isFrame hi
    simp only [hi, exec_frameInstr] at hs hu
    exact keepsAlike_receiveFrame k p ck _ _ _ _ h hs hu

theorem keepsAlike_nextByte : KeepsAlike nextByte := keepsAlike_map

theorem keepsAlike_rxByteDone : KeepsAlike rxByteDone := by
  intro s u t v h hs hu
  have same := h.sameSession
  unfold rxByteDone commandByteDone at hs hu
  simp only [h.cfg, same.offset, same.flen, same.op, same.latched, same.shadow] at hs hu
  split_ifs at hs hu
  · cases hk : lookup u.cfg u.op u.latched.sel u.latched.pf (u.shadow.read 0) with
    | none =>
      simp only [hk] at hs hu
      exact keepsAlike_finish _ _ _ _ _ _ h hs hu
    | some k =>
      simp only [hk] at hs hu
      exact keepsAlike_nextByte _ _ _ _ (h.map fun t => t.setFrame (some k) _) hs hu
  · exact keepsAlike_runReceived _ _ _ _ h hs hu
  · exact keepsAlike_nextByte _ _ _ _ h hs hu

theorem keepsAlike_senderByteDone : KeepsAlike senderByteDone := by
  intro s u t v h hs hu
  have same := h.sameSession
  unfold senderByteDone at hs hu
  simp only [same.offset, same.flen] at hs hu
  split_ifs at hs hu
  · exact keepsAlike_finish _ _ _ _ _ _ h hs hu
  · cases hs
    cases hu
    exact (h.map fun t => t.setOffset (u.offset + 1)).startByte (h.fbuf _)

theorem sample_fbuf (l : Lines) (s : State) (i : Nat) : (sample l s).fbuf i = s.fbuf i := by
  rcases sample_cases l s with ⟨-, v, e⟩ | ⟨-, -, v, e⟩ <;> rw [e] <;> rfl

theorem sample_sessionView (l : Lines) (s : State) :
    (sample l s).sessionView = (sample l s.sessionView).sessionView := by
  have hhs : s.sessionView.hs = s.hs := rfl
  have hbitn : s.sessionView.bitn = s.bitn := rfl
  simp only [sample, hhs, hbitn]
  split <;> rfl

theorem senderCellDone_fbuf (s : State) (i : Nat) : (senderCellDone s).fbuf i = s.fbuf i := by
  unfold senderCellDone
  split <;> rfl

theorem senderCellDone_sessionView (s : State) :
    (senderCellDone s).sessionView = (senderCellDone s.sessionView).sessionView := by
  have hbitn : s.sessionView.bitn = s.bitn := rfl
  simp only [senderCellDone, hbitn]
  split <;> rfl

/-! The rules of 40_handshake.md -/

section rules

variable (l : Lines)

theorem keepsAlike_senderIdle : KeepsAlike (senderIdle l) :=
  keepsAlike_waitFor keepsAlike_map (keepsAlike_finish _ _) (fun _ => rfl) fun _ => rfl

theorem keepsAlike_senderStart : KeepsAlike senderStart :=
  keepsAlike_holdFor (keepsAlike_next fun h => h.startByte (by rw [h.fbuf, h.sameSession.offset])) fun _ => rfl

theorem keepsAlike_senderBitHigh : KeepsAlike senderBitHigh := keepsAlike_holdFor keepsAlike_map fun _ => rfl

theorem keepsAlike_senderBitLow : KeepsAlike senderBitLow :=
  keepsAlike_holdFor (keepsAlike_map senderCellDone_sessionView senderCellDone_fbuf) fun _ => rfl

theorem keepsAlike_senderAckLow : KeepsAlike (senderAckLow l) :=
  keepsAlike_waitFor keepsAlike_map (keepsAlike_finish _ _) (fun _ => rfl) fun _ => rfl

theorem keepsAlike_senderAckHigh : KeepsAlike (senderAckHigh l) :=
  keepsAlike_waitFor keepsAlike_senderByteDone (keepsAlike_finish _ _) (fun _ => rfl) fun _ => rfl

theorem keepsAlike_awaitStart : KeepsAlike (awaitStart l) :=
  keepsAlike_waitFor keepsAlike_map (keepsAlike_finish _ _) (fun _ => rfl) fun _ => rfl

theorem keepsAlike_awaitCell : KeepsAlike (awaitCell l) :=
  keepsAlike_waitFor (keepsAlike_map (sample_sessionView l) (sample_fbuf l)) (keepsAlike_finish _ _) (fun _ => rfl)
    fun _ => rfl

theorem keepsAlike_receiverAckStart : KeepsAlike (receiverAckStart l) :=
  keepsAlike_waitFor keepsAlike_map (keepsAlike_finish _ _) (fun _ => rfl) fun _ => rfl

theorem keepsAlike_receiverAckHold : KeepsAlike receiverAckHold :=
  keepsAlike_holdFor
    (fun _ _ _ _ h => keepsAlike_rxByteDone _ _ _ _ (h.map fun t => t.setOe { t.oe with ack := false })) fun _ => rfl

theorem keepsAlike_observerAckLow : KeepsAlike (observerAckLow l) :=
  keepsAlike_waitFor keepsAlike_map (keepsAlike_finish _ _) (fun _ => rfl) fun _ => rfl

theorem keepsAlike_observerAckHigh : KeepsAlike (observerAckHigh l) :=
  keepsAlike_waitFor keepsAlike_rxByteDone (keepsAlike_finish _ _) (fun _ => rfl) fun _ => rfl

/-- The tick of a session reads nothing of the host's side: two states that are alike stay so. -/
theorem keepsAlike_handshake : KeepsAlike (handshake l) := by
  intro s u t v h hs hu
  have same := h.sameSession
  have runs {f : State → Result} (hf : KeepsAlike f)
      (e : ∀ x : State, x.role = s.role → x.hs = s.hs → x.ph = s.ph → handshake l x = f x) : t.Alike v :=
    hf s u t v h (e s rfl rfl rfl ▸ hs) (e u same.role.symm same.hs.symm same.ph.symm ▸ hu)
  by_cases h0 : s.role = .none ∨ s.hs = .timedOut
  · exact runs (keepsAlike_next fun h => h) fun x er eh _ => handshake_nowhere l (by rwa [er, eh])
  push Not at h0
  have hear (hr : s.role = .receiver ∨ s.role = .observer) (hh : s.hs = .idle ∨ s.hs = .start ∨ s.hs = .bit) :
      t.Alike v := by
    rcases hh with hh | hh
    · exact runs (keepsAlike_awaitStart l) fun x er eh _ => handshake_awaitStart l (by rwa [er]) (by rwa [eh])
    · exact runs (keepsAlike_awaitCell l) fun x er eh _ => handshake_awaitCell l (by rwa [er]) (by rwa [eh])
  have hph : s.ph = false ∨ s.ph = true := by cases s.ph <;> simp
  cases hr : s.role with
  | none => exact absurd hr h0.1
  | sender =>
    rcases HS.cases_of_ne h0.2 with hh | hh | hh | hh
    · exact runs (keepsAlike_senderIdle l) fun x er eh _ => handshake_senderIdle l (er.trans hr) (eh.trans hh)
    · exact runs keepsAlike_senderStart fun x er eh _ => handshake_senderStart l (er.trans hr) (eh.trans hh)
    · rcases hph with hp | hp
      · exact runs keepsAlike_senderBitHigh fun x er eh ep =>
          handshake_senderBitHigh l (er.trans hr) (eh.trans hh) (ep.trans hp)
      · exact runs keepsAlike_senderBitLow fun x er eh ep =>
          handshake_senderBitLow l (er.trans hr) (eh.trans hh) (ep.trans hp)
    · rcases hph with hp | hp
      · exact runs (keepsAlike_senderAckLow l) fun x er eh ep =>
          handshake_senderAckLow l (er.trans hr) (eh.trans hh) (ep.trans hp)
      · exact runs (keepsAlike_senderAckHigh l) fun x er eh ep =>
          handshake_senderAckHigh l (er.trans hr) (eh.trans hh) (ep.trans hp)
  | receiver =>
    rcases HS.cases_of_ne h0.2 with hh | hh | hh | hh
    · exact hear (.inl hr) (.inl hh)
    · exact hear (.inl hr) (.inr (.inl hh))
    · exact hear (.inl hr) (.inr (.inr hh))
    · rcases hph with hp | hp
      · exact runs (keepsAlike_receiverAckStart l) fun x er eh ep =>
          handshake_receiverAckStart l (er.trans hr) (eh.trans hh) (ep.trans hp)
      · exact runs keepsAlike_receiverAckHold fun x er eh ep =>
          handshake_receiverAckHold l (er.trans hr) (eh.trans hh) (ep.trans hp)
  | observer =>
    rcases HS.cases_of_ne h0.2 with hh | hh | hh | hh
    · exact hear (.inr hr) (.inl hh)
    · exact hear (.inr hr) (.inr (.inl hh))
    · exact hear (.inr hr) (.inr (.inr hh))
    · rcases hph with hp | hp
      · exact runs (keepsAlike_observerAckLow l) fun x er eh ep =>
          handshake_observerAckLow l (er.trans hr) (eh.trans hh) (ep.trans hp)
      · exact runs (keepsAlike_observerAckHigh l) fun x er eh ep =>
          handshake_observerAckHigh l (er.trans hr) (eh.trans hh) (ep.trans hp)

end rules

/-! A tick with any host access -/

/-- A tick of a busy block: the host access leaves a state that is alike, and then comes the session's own tick. -/
theorem step_withInput_of_busy {s t : State} {h : HostAccess} {peer : Lines} (hb : s.busy = true)
    (e : step (s.withInput ⟨false, h, peer⟩) = .next t) :
    ∃ u v n d, s.Alike u ∧ u.busy = true ∧ handshake (resolveLines s.oe peer) u = .next v ∧
      t = v.closeTick (resolveLines s.oe peer) s.inputs n d := by
  obtain ⟨-, ⟨hr, -⟩ | ⟨-, u, v, hu, hv, rfl⟩⟩ := step_eq_next e
  · cases hr
  have hb' : (s.withInput ⟨false, h, peer⟩).busy = true := hb
  rw [if_pos hb'] at hv
  have same := hostAccess_of_busy hb' hu
  have halike := same.alike (hostAccess_keeps hu).1.symm
  exact ⟨u, v, _, _, ⟨halike.view, halike.fbuf⟩, same.busy ▸ hb', hv, rfl⟩

theorem State.Alike.closeTick {s u : State} (h : s.Alike u) (l : Lines) (r : List TickInput) (n n' : Nat)
    (d d' : Option Word) : (s.closeTick l r n d).Alike (u.closeTick l r n' d') :=
  ⟨congrArg (fun x : State => { x with prev := l }) h.view, h.fbuf⟩

/-- Settles O53: both host accesses leave the session as it was, and its own tick reads nothing else. -/
theorem sessionDoesNotDependOnTheHostAccess : Obligations.SessionDoesNotDependOnTheHostAccess := by
  intro s t u h h' peer hb ht hu
  obtain ⟨a, b, n, d, ha, -, hab, rfl⟩ := step_withInput_of_busy hb ht
  obtain ⟨a', b', n', d', ha', -, hab', rfl⟩ := step_withInput_of_busy hb hu
  have halike : a.Alike a' := ⟨ha.view.symm.trans ha'.view, fun i => (ha.fbuf i).symm.trans (ha'.fbuf i)⟩
  exact ((keepsAlike_handshake _ a a' b b' halike hab hab').closeTick _ _ _ _ _ _).sameSession

/-- Settles O55: a session ends only by a completion, which comes after the host access and sets DONE. -/
theorem completionSetsDoneWhateverTheHostDoes : Obligations.CompletionSetsDoneWhateverTheHostDoes := by
  refine ⟨fun s => by rw [State.irq, Bool.and_eq_true], fun s t h peer hb ht hend => ?_⟩
  obtain ⟨a, b, n, d, -, hab, hhand, rfl⟩ := step_withInput_of_busy hb ht
  obtain ⟨err, anom, c, x, rfl⟩ := (handshake_moves hhand).end_complete hab hend
  have hdone : ((complete err anom c x).closeTick (resolveLines s.oe peer) s.inputs n d).done = true := rfl
  exact ⟨hdone, by rw [State.irq, hdone, Bool.true_and]⟩

end Sys2Proof.Machine
end

section
/-! The lines that several blocks share (10_state.md R40), and the table of reset values (R67). -/

namespace Sys2Proof.Machine

/-- A line that some agents pull together is pulled by the foreign agents or by a block. -/
theorem busPulls_line {f : Lines → Bool} (hf : ∀ a b, f (unionPulls a b) = (f a || f b)) (outside : Lines)
    (blocks : List State) : f (busPulls outside blocks) = (f outside || blocks.any fun s => f s.oe) := by
  unfold busPulls
  induction blocks generalizing outside with
  | nil => simp
  | cons s blocks ih => rw [List.foldl_cons, ih, hf, List.any_cons, Bool.or_assoc]

/-- A block's own pull is one of those that the agents make together. -/
theorem busPulls_of_mem {f : Lines → Bool} (hf : ∀ a b, f (unionPulls a b) = (f a || f b)) (outside : Lines)
    {blocks : List State} {s : State} (hs : s ∈ blocks) :
    (f s.oe || f (busPulls outside blocks)) = f (busPulls outside blocks) := by
  rw [Bool.or_eq_right_iff_imp, busPulls_line hf]
  intro h
  rw [Bool.or_eq_true, List.any_eq_true]
  exact .inr ⟨s, hs, h⟩

/-- A line is at 1 exactly when nobody pulls it (10_state.md R40). -/
theorem busPulls_released_iff {f : Lines → Bool} (hf : ∀ a b, f (unionPulls a b) = (f a || f b)) (outside : Lines)
    (blocks : List State) :
    (!f (busPulls outside blocks)) = true ↔ f outside = false ∧ ∀ s ∈ blocks, f s.oe = false := by
  rw [busPulls_line hf]
  simp

/-- Settles O57: the pulls of the bus are the union of all agents', line by line. -/
theorem sharedLinesHaveOneLevel : Obligations.SharedLinesHaveOneLevel := by
  intro outside blocks
  refine ⟨fun s hs => ?_, ?_, ?_, ?_, ?_⟩
  · simp only [busLevels, resolveLines, Lines.released, Bool.false_or,
      busPulls_of_mem (f := Lines.sync) (fun _ _ => rfl) outside hs,
      busPulls_of_mem (f := Lines.ack) (fun _ _ => rfl) outside hs,
      busPulls_of_mem (f := Lines.data) (fun _ _ => rfl) outside hs,
      busPulls_of_mem (f := Lines.clock) (fun _ _ => rfl) outside hs]
  · exact busPulls_released_iff (f := Lines.sync) (fun _ _ => rfl) outside blocks
  · exact busPulls_released_iff (f := Lines.ack) (fun _ _ => rfl) outside blocks
  · exact busPulls_released_iff (f := Lines.data) (fun _ _ => rfl) outside blocks
  · exact busPulls_released_iff (f := Lines.clock) (fun _ _ => rfl) outside blocks

/-- Settles O41: R67's table, element by element; an empty memory reads 0 everywhere. -/
theorem resetStateIsAsStated : Obligations.ResetStateIsAsStated := by
  have hbytes (i : Nat) : State.reset.fbuf i = 0 ∧ State.reset.txpay i = 0 ∧ State.reset.field i = 0 :=
    ⟨ite_self (0 : Byte), ite_self (0 : Byte), ite_self (0 : Byte)⟩
  exact ⟨rfl, rfl, rfl, rfl, rfl, rfl, rfl, rfl, hbytes, rfl, rfl, rfl, rfl, rfl, rfl, rfl, rfl, rfl, rfl, rfl,
    fun _ => rfl, rfl, rfl, rfl, rfl⟩

end Sys2Proof.Machine
end

section
/-! The host register window (20_memory.md R80 to R88): what a write stores, what a read then gives, and both over whole
ticks, in which the session of a busy block takes its own tick too. -/

namespace Sys2Proof.Machine

/-! What a host write stores -/

/-- A host write, field by field (R33, R35, R37 to R39, R81); `State.writeWord_mem` says what it does to the byte
arrays. -/
theorem State.writeWord_eq (s : State) (w : Nat) (v : Word) :
    s.writeWord w v =
      { s with
        ie := if w = 0 then v.getLsbD 0 else s.ie,
        pfSel := if w = 0 then v.getLsbD 1 else s.pfSel,
        done := if w = 2 ∧ v.getLsbD 1 = true then false else s.done,
        rej := if w = 2 ∧ v.getLsbD 2 = true then false else s.rej,
        tmo := if w = 4 then v else s.tmo,
        timing0 := if w = 5 then v else s.timing0,
        timing1 := if w = 6 then v else s.timing1,
        mem := (s.writeWord w v).mem } := by
  match w with
  | 0 => rfl
  | 1 => rfl
  | 2 =>
    have clear (b c : Bool) : (b && !c) = if c = true then false else b := by cases c <;> simp
    simp [State.writeWord, State.setFlags, clear]
  | 3 => rfl
  | 4 => rfl
  | 5 => rfl
  | 6 => rfl
  | n + 7 => simp [State.writeWord, State.setMem]

/-- A byte after a host write: the write's own, where its word holds a byte that the host may store. -/
theorem State.writeWord_read (s : State) (w : Nat) (v : Word) (a : Nat) :
    (s.writeWord w v).mem.read a =
      if a / 4 = w ∧ storable a = true then v.extractLsb' (8 * (a % 4)) 8 else s.mem.read a := by
  rw [State.writeWord_mem]
  split
  · exact Memory.read_storeWord s.mem w v a
  · rw [if_neg]
    rw [storable_iff]
    omega

/-- Settles O20: the write by its fields and its bytes, and in a step the write before the session's own tick. -/
theorem hostWriteStoresOnlyItsRegister : Obligations.HostWriteStoresOnlyItsRegister := by
  intro s addr v hcmd
  refine ⟨s.writeWord_eq _ v, fun a => ?_, fun peer rest hwf hi => ?_⟩
  · simp only [State.writeWord_read, storable_iff]
  · have hn := State.nextInput_of_cons hi
    have hw : wordIndex addr ≠ cmdIndex := by rwa [wordIndex_eq]
    rw [step_eq_runTick hwf (by rw [hn]), hn, runTick, hostAccess, if_neg hw, andThen_next, wordIndex_eq, hi]
    rfl

/-! What a read then gives -/

/-- CTRL holds its two bits of a word (R33). -/
theorem ctrlWord_of_bits {s : State} {v : Word} (hie : s.ie = v.getLsbD 0) (hpf : s.pfSel = v.getLsbD 1) :
    s.ctrlWord = v &&& 3 := by
  have hmask : ∀ i < 32, (3 : Word).getLsbD i = decide (i < 2) := by decide
  obtain ⟨h0, h1, hhigh⟩ := ctrlWord_fields s
  apply BitVec.eq_of_getLsbD_eq
  intro i hi
  rw [BitVec.getLsbD_and, hmask i hi]
  match i with
  | 0 => simpa [hie] using h0
  | 1 => simpa [hpf] using h1
  | j + 2 =>
    have hbit : (s.ctrlWord.extractLsb' 2 30).getLsbD j = s.ctrlWord.getLsbD (j + 2) := by
      rw [BitVec.getLsbD_extractLsb', Nat.add_comm 2 j, decide_eq_true (show j < 30 by omega), Bool.true_and]
    rw [← hbit, hhigh]
    simp

/-- A word is its four bytes (R82). -/
theorem word_of_bytes (v : Word) :
    v.extractLsb' 24 8 ++ v.extractLsb' 16 8 ++ v.extractLsb' 8 8 ++ v.extractLsb' 0 8 = v := by
  have h16 : v.extractLsb' 24 8 ++ v.extractLsb' 16 8 = v.extractLsb' 16 16 :=
    BitVec.extractLsb'_append_extractLsb'_eq_extractLsb' rfl
  have h8 : v.extractLsb' 16 16 ++ v.extractLsb' 8 8 = v.extractLsb' 8 24 :=
    BitVec.extractLsb'_append_extractLsb'_eq_extractLsb' rfl
  have h0 : v.extractLsb' 8 24 ++ v.extractLsb' 0 8 = v.extractLsb' 0 32 :=
    BitVec.extractLsb'_append_extractLsb'_eq_extractLsb' rfl
  rw [h16, h8, h0, BitVec.extractLsb'_eq_self]

/-- The low byte of a word, as a word of four bytes. -/
theorem word_of_low_byte (v : Word) : 0#8 ++ 0#8 ++ 0#8 ++ v.extractLsb' 0 8 = v &&& 0xFF := by
  have hmask : ∀ i < 32, (0xFF : Word).getLsbD i = decide (i < 8) := by decide
  apply BitVec.eq_of_getLsbD_eq
  intro i hi
  rw [BitVec.getLsbD_and, hmask i hi]
  show BitVec.getLsbD (w := 8 + 8 + 8 + 8) (0#8 ++ 0#8 ++ 0#8 ++ v.extractLsb' 0 8) i = _
  by_cases h : i < 8
  · rw [getLsbD_append_low _ _ i h]
    simp [h]
  · rw [getLsbD_append_high _ _ i (by omega)]
    simp [h]

theorem readWord_of_ge (s : State) {w : Nat} (h : 10 ≤ w) : s.readWord w = s.bufferWord w := by
  obtain ⟨n, rfl⟩ := Nat.exists_eq_add_of_le' h
  rfl

/-- A byte that the host may store reads from the byte arrays (R44, R45). -/
theorem hostByte_of_storable (s : State) {a : Nat} (h : storable a = true) : s.hostByte a = s.mem.read a := by
  rw [storable_iff] at h
  unfold State.hostByte State.txpay State.field
  simp only [fbufBase, txpayBase, fieldBase]
  obtain h | h := h
  · rw [if_neg (by omega), if_pos (by omega), if_pos (by omega), show 0x080 + (a - 0x080) = a by omega]
  · rw [if_neg (by omega), if_neg (by omega), if_pos (by omega), if_pos (by omega),
      show 0x100 + (a - 0x100) = a by omega]

/-- TXPAY[45..47] are hard-wired 0 (R44, R48). -/
theorem hostByte_txpay_end (s : State) {a : Nat} (hl : 0x0AD ≤ a) (hu : a < 0x0B0) : s.hostByte a = 0 := by
  unfold State.hostByte State.txpay
  simp only [fbufBase, txpayBase]
  rw [if_neg (by omega), if_pos (by omega), if_neg (by omega)]

/-- The bytes of word `w` that the host may store are those of `v`. -/
def State.HoldsWord (s : State) (w : Nat) (v : Word) : Prop :=
  ∀ a, a / 4 = w → storable a = true → s.mem.read a = v.extractLsb' (8 * (a % 4)) 8

theorem writeWord_holdsWord (s : State) (w : Nat) (v : Word) : (s.writeWord w v).HoldsWord w v := fun a ha hs => by
  rw [State.writeWord_read, if_pos ⟨ha, hs⟩]

theorem State.HoldsWord.hostByte {s : State} {w : Nat} {v : Word} (h : s.HoldsWord w v) {j : Nat} (hj : j < 4)
    (hs : storable (4 * w + j) = true) : s.hostByte (4 * w + j) = v.extractLsb' (8 * j) 8 := by
  rw [hostByte_of_storable s hs, h _ (by omega) hs, show (4 * w + j) % 4 = j by omega]

/-- A word of four stored bytes reads back whole (R44, R45, R84). -/
theorem State.HoldsWord.readWord {s : State} {w : Nat} {v : Word} (h : s.HoldsWord w v)
    (hw : (32 ≤ w ∧ w < 43) ∨ (64 ≤ w ∧ w < 80)) : s.readWord w = v := by
  have hbyte (j : Nat) (hj : j < 4) : s.hostByte (4 * w + j) = v.extractLsb' (8 * j) 8 :=
    h.hostByte hj (by rw [storable_iff]; omega)
  have hbyte0 : s.hostByte (4 * w) = v.extractLsb' 0 8 := hbyte 0 (by decide)
  rw [readWord_of_ge s (by omega), State.bufferWord, hbyte 3 (by decide), hbyte 2 (by decide), hbyte 1 (by decide),
    hbyte0]
  exact word_of_bytes v

/-- The last word of TXPAY keeps its first byte alone (R44, R48). -/
theorem State.HoldsWord.readWord_last {s : State} {v : Word} (h : s.HoldsWord 43 v) : s.readWord 43 = v &&& 0xFF := by
  have hbyte0 : s.hostByte (4 * 43) = v.extractLsb' 0 8 := h.hostByte (j := 0) (by decide) (by decide)
  rw [readWord_of_ge s (by omega), State.bufferWord, hostByte_txpay_end s (by decide) (by decide),
    hostByte_txpay_end s (by decide) (by decide), hostByte_txpay_end s (by decide) (by decide), hbyte0]
  exact word_of_low_byte v

/-- The registers that only the host writes: CTRL, TMO and the timings (R33, R37 to R39). -/
def State.hostRegisters (s : State) : Bool × Bool × Word × Word × Word := (s.ie, s.pfSel, s.tmo, s.timing0, s.timing1)

/-- A register that the host has written reads back, in any state with the same host registers (R33, R37 to R39). -/
theorem readWord_of_hostRegisters {s t : State} {v : Word} {w : Nat}
    (h : t.hostRegisters = (s.writeWord w v).hostRegisters) :
    (w = 0 → t.readWord w = v &&& 3) ∧ (4 ≤ w → w < 7 → t.readWord w = v) := by
  simp only [State.hostRegisters, Prod.mk.injEq] at h
  obtain ⟨hie, hpf, htmo, ht0, ht1⟩ := h
  refine ⟨?_, fun hl hu => ?_⟩
  · rintro rfl
    exact ctrlWord_of_bits hie hpf
  · obtain rfl | rfl | rfl : w = 4 ∨ w = 5 ∨ w = 6 := by omega
    · exact htmo
    · exact ht0
    · exact ht1

/-! The session's own tick and the host's registers -/

theorem frameDone_hostRegisters (k : Cmd) (p : List Byte) (ck : Byte) (s : State) :
    (frameDone k p ck s).hostRegisters = s.hostRegisters := by
  obtain ⟨err, anom, m, e⟩ := frameDone_eq_complete k p ck s
  simp [e, State.hostRegisters]

theorem rxByteDone_hostRegisters {s t : State} (h : rxByteDone s = .next t) : t.hostRegisters = s.hostRegisters := by
  rcases rxByteDone_cases s with ⟨-, -, e⟩ | ⟨k, -, -, e⟩ | ⟨-, -, e⟩ | ⟨-, -, e⟩ <;> rw [e] at h
  · cases h; simp [State.hostRegisters]
  · cases h; simp [State.hostRegisters]
  · obtain ⟨k, p, ck, -, -, -, rfl⟩ := runReceived_eq_next h
    split
    · rw [frameDone_hostRegisters]
      simp [State.hostRegisters]
    · rfl
  · cases h; simp [State.hostRegisters]

theorem acked_hostRegisters (s : State) : s.acked.hostRegisters = s.hostRegisters := by
  unfold State.acked
  split <;> simp [State.hostRegisters]

theorem sample_hostRegisters (l : Lines) (s : State) : (sample l s).hostRegisters = s.hostRegisters := by
  rcases sample_cases l s with ⟨-, v, e⟩ | ⟨-, -, v, e⟩ <;> simp [e, State.hostRegisters]

/-- No tick of a session writes a register of the host's (R63, R84). -/
theorem Moves.hostRegisters_eq {l : Lines} {s t : State} (h : Moves l s t) : t.hostRegisters = s.hostRegisters := by
  cases h with
  | sampled =>
    rw [sample_hostRegisters]
    simp [State.hostRegisters]
  | byteDone _ _ _ _ h => rw [rxByteDone_hostRegisters h, acked_hostRegisters]
  | _ => simp [State.hostRegisters]

/-- What a received frame leaves of TXPAY: all of it. -/
theorem frameDone_txpay (k : Cmd) (p : List Byte) (ck : Byte) (s : State) {a : Nat} (hl : 0x080 ≤ a) (hu : a < 0x0AD) :
    (frameDone k p ck s).mem.read a = s.mem.read a := by
  have hfbuf : (s.mem.writeFbuf (frameBytes s.cfg k p ck)).read a = s.mem.read a := by
    rw [Memory.read_writeFbuf, if_neg (by rw [fbufBase]; omega)]
  rcases frameDone_cases k p ck s with ⟨-, e⟩ | ⟨-, -, -, e⟩ | ⟨-, -, e⟩ <;> rw [e]
  · exact hfbuf
  · exact hfbuf
  · rw [complete_mem, State.setMem_mem, Memory.read_writeFields, if_neg (by rw [fieldBase]; omega), hfbuf]

/-- The byte arrays through an operation of a session: only one that ends the session writes them, and never TXPAY. -/
def ArraysKept (s t : State) : Prop :=
  t.mem = s.mem ∨ (t.busy = false ∧ ∀ a, 0x080 ≤ a → a < 0x0AD → t.mem.read a = s.mem.read a)

theorem rxByteDone_arraysKept {s t : State} (h : rxByteDone s = .next t) : ArraysKept s t := by
  rcases rxByteDone_cases s with ⟨-, -, e⟩ | ⟨k, -, -, e⟩ | ⟨-, -, e⟩ | ⟨-, -, e⟩ <;> rw [e] at h
  · cases h; exact .inl (by simp)
  · cases h; exact .inl (by simp)
  · obtain ⟨k, p, ck, -, -, -, rfl⟩ := runReceived_eq_next h
    split
    · exact .inr ⟨frameDone_busy k p ck _, fun a hl hu => by rw [frameDone_txpay k p ck _ hl hu, State.holding_mem]⟩
    · exact .inl rfl
  · cases h; exact .inl (by simp)

@[simp] theorem State.acked_mem (s : State) : s.acked.mem = s.mem := by unfold State.acked; split <;> rfl

@[simp] theorem sample_mem (l : Lines) (s : State) : (sample l s).mem = s.mem := by
  rcases sample_cases l s with ⟨-, v, e⟩ | ⟨-, -, v, e⟩ <;> simp [e]

/-- A tick of a session writes no byte of TXPAY, and none of FIELD unless it ends the session (R85, R246). -/
theorem Moves.arraysKept {l : Lines} {s t : State} (h : Moves l s t) : ArraysKept s t := by
  cases h with
  | byteDone _ _ _ _ h => simpa only [ArraysKept, State.acked_mem] using rxByteDone_arraysKept h
  | _ => exact .inl (by simp)

/-! A tick with a write, and a tick with a read -/

/-- After a tick with a write outside CMD's word, the host's registers are the write's, and so are the byte arrays but
for what a session that has ended in it has written. -/
theorem step_write {s t : State} {addr : BitVec 12} {v : Word} {peer : Lines} (hc : addr.toNat / 4 ≠ 1)
    (h : step (s.withInput ⟨false, .write addr v, peer⟩) = .next t) :
    t.hostRegisters = (s.writeWord (addr.toNat / 4) v).hostRegisters ∧
      (t.mem = (s.writeWord (addr.toNat / 4) v).mem ∨
        (t.busy ≠ s.busy ∧
          ∀ a, 0x080 ≤ a → a < 0x0AD → t.mem.read a = (s.writeWord (addr.toNat / 4) v).mem.read a)) := by
  obtain ⟨-, ⟨hr, -⟩ | ⟨-, u, x, hu, hx, rfl⟩⟩ := step_eq_next h
  · cases hr
  have hw : wordIndex addr ≠ cmdIndex := by rwa [wordIndex_eq]
  rw [State.withInput_nextInput, hostAccess, if_neg hw, wordIndex_eq] at hu
  cases hu
  have hregs : ((s.withInput ⟨false, .write addr v, peer⟩).writeWord (addr.toNat / 4) v).hostRegisters =
      (s.writeWord (addr.toNat / 4) v).hostRegisters := by
    rw [State.writeWord_eq, s.writeWord_eq]
    rfl
  have hmem : ((s.withInput ⟨false, .write addr v, peer⟩).writeWord (addr.toNat / 4) v).mem =
      (s.writeWord (addr.toNat / 4) v).mem := by
    rw [State.writeWord_mem, s.writeWord_mem]
    rfl
  rw [← hregs, ← hmem]
  split at hx
  · next hb =>
    have hmoves := handshake_moves hx
    refine ⟨hmoves.hostRegisters_eq, hmoves.arraysKept.imp id fun ⟨hend, hkeep⟩ => ⟨?_, hkeep⟩⟩
    have hb' : s.busy = true := hb
    rw [State.closeTick_busy, hend, hb']
    decide
  · cases hx
    exact ⟨rfl, .inl rfl⟩

/-- A tick with a read puts the word at the start of the tick on `h_rdata` (R80). -/
theorem step_read {s t : State} {addr : BitVec 12} {peer : Lines}
    (h : step (s.withInput ⟨false, .read addr, peer⟩) = .next t) : t.hRdata = some (s.readWord (addr.toNat / 4)) := by
  obtain ⟨-, ⟨hr, -⟩ | ⟨-, u, x, -, -, rfl⟩⟩ := step_eq_next h
  · cases hr
  · rw [← hostRead_eq (s := s) rfl]
    rfl

/-- Settles O22: what the read gives is what `readWord` says of a state with the host's registers, or with the bytes of
the word, as the write left them; between the two ticks only the end of a session writes FIELD. -/
theorem hostReadsBackWhatItWrote : Obligations.HostReadsBackWhatItWrote := by
  intro s v
  have holds (w : Nat) := writeWord_holdsWord s w v
  have regs (w : Nat) := readWord_of_hostRegisters (s := s) (v := v) (w := w) rfl
  refine ⟨⟨(regs 0).1 rfl, (regs 4).2 (by decide) (by decide), (regs 5).2 (by decide) (by decide),
    (regs 6).2 (by decide) (by decide), fun w hl hu => (holds w).readWord (.inl ⟨hl, hu⟩), (holds 43).readWord_last,
    fun w hl hu => (holds w).readWord (.inr ⟨hl, hu⟩)⟩, ?_⟩
  intro addr addr' peer peer' t u haddr ht hu
  rw [step_read hu, haddr]
  simp only [Option.some.injEq]
  generalize hw : addr.toNat / 4 = w
  have hregs (hc : w ≠ 1) := readWord_of_hostRegisters (step_write (hw ▸ hc) ht).1
  have hbytes (hc : w ≠ 1) (hkept : t.busy = s.busy ∨ w < 44) : t.HoldsWord w v := by
    intro a ha hs
    rw [← holds w a ha hs]
    obtain hmem | ⟨hend, hmem⟩ := (step_write (hw ▸ hc) ht).2
    · rw [hmem, hw]
    · rw [storable_iff] at hs
      have hlt := hkept.resolve_left hend
      rw [hmem a (by omega) (by omega), hw]
  rw [hw] at hregs
  refine ⟨fun h => (hregs (by omega)).1 h, fun hl hu => (hregs (by omega)).2 (by omega) (by omega),
    fun hl hu => (hbytes (by omega) (.inr (by omega))).readWord (.inl (by omega)), ?_,
    fun hl hu hb => (hbytes (by omega) (.inl hb)).readWord (.inr (by omega))⟩
  intro h
  have h43 : w = 43 := h
  subst h43
  exact (hbytes (by decide) (.inr (by decide))).readWord_last

/-! Reserved addresses -/

theorem reservedWord_iff (w : Nat) :
    reservedWord w = true ↔ (10 ≤ w ∧ w < 16) ∨ (28 ≤ w ∧ w < 32) ∨ (44 ≤ w ∧ w < 64) ∨ 80 ≤ w := by
  simp [reservedWord, or_assoc]

theorem hostByte_of_reserved (s : State) {a : Nat} (h : reservedWord (a / 4) = true) : s.hostByte a = 0 := by
  rw [reservedWord_iff] at h
  unfold State.hostByte
  simp only [fbufBase, txpayBase, fieldBase]
  rw [if_neg (by omega), if_neg (by omega), if_neg (by omega)]

theorem readWord_of_reserved (s : State) {w : Nat} (h : reservedWord w = true) : s.readWord w = 0 := by
  have hbyte (j : Nat) (hj : j < 4) : s.hostByte (4 * w + j) = 0 :=
    hostByte_of_reserved s (by rwa [show (4 * w + j) / 4 = w by omega])
  have hbyte0 : s.hostByte (4 * w) = 0 := hbyte 0 (by decide)
  have h10 : 10 ≤ w := by rw [reservedWord_iff] at h; omega
  rw [readWord_of_ge s h10, State.bufferWord, hbyte 3 (by decide), hbyte 2 (by decide), hbyte 1 (by decide), hbyte0]
  rfl

/-- A host write at a reserved word changes nothing: none of its bytes is storage (R46). -/
theorem writeWord_of_reserved (s : State) {w : Nat} (h : reservedWord w = true) (v : Word) : s.writeWord w v = s := by
  rw [reservedWord_iff] at h
  have hbyte (j : Nat) (hj : j < 4) (m : Memory) (b : Byte) : m.storeByte (4 * w + j) b = m := by
    rw [Memory.storeByte, if_neg]
    rw [storable_iff]
    omega
  have hmem : s.mem.storeWord w v = s.mem := by
    rw [Memory.storeWord, hbyte 3 (by decide), hbyte 2 (by decide), hbyte 1 (by decide)]
    exact hbyte 0 (by decide) _ _
  obtain ⟨n, rfl⟩ := Nat.exists_eq_add_of_le' (show 7 ≤ w by omega)
  show s.setMem (s.mem.storeWord (n + 7) v) = s
  rw [hmem]
  rfl

/-- A tick whose host access changes nothing: the session's own tick and the end of the tick, which do not see the
access but for the word on `h_rdata`. -/
theorem step_of_access_without_effect {s : State} {h : HostAccess} {peer : Lines} (hwf : s.cfg.wf = true)
    (hh : hostAccess h (s.withInput ⟨false, h, peer⟩) = .next (s.withInput ⟨false, h, peer⟩)) :
    step (s.withInput ⟨false, h, peer⟩) =
      andThen (if s.busy then handshake (resolveLines s.oe peer) s else .next s) fun u => .next
        ((u.closeTick (resolveLines s.oe peer) s.inputs (s.tick + 1) (readData h s)).setAside s.rej s.inputs) := by
  have hdata : readData h (s.withInput ⟨false, h, peer⟩) = readData h s := by cases h <;> rfl
  have hhand : handshake (resolveLines s.oe peer) (s.withInput ⟨false, h, peer⟩) =
      andThen (handshake (resolveLines s.oe peer) s) fun u => .next (u.setAside s.rej (⟨false, h, peer⟩ :: s.inputs)) :=
    carries_handshake s.rej (⟨false, h, peer⟩ :: s.inputs) _ s
  have hbusy : (s.withInput ⟨false, h, peer⟩).busy = s.busy := rfl
  have hoe : (s.withInput ⟨false, h, peer⟩).oe = s.oe := rfl
  rw [step_eq_runTick (s := s.withInput ⟨false, h, peer⟩) hwf rfl, runTick, State.withInput_nextInput, hh, andThen_next,
    hdata, hbusy, hoe]
  split
  · rw [hhand]
    cases handshake (resolveLines s.oe peer) s <;> rfl
  · rfl

/-- Settles O23: at a reserved word the write leaves the state and the read gives 0, so both ticks are the idle one but
for the word on `h_rdata`. -/
theorem reservedAddressesReadZeroAndIgnoreWrites : Obligations.ReservedAddressesReadZeroAndIgnoreWrites := by
  intro s addr v hres
  have hread : s.hostRead addr = 0 := (hostRead_eq rfl).trans (readWord_of_reserved s hres)
  refine ⟨⟨hread, writeWord_of_reserved s hres v⟩, fun peer t ht => ?_⟩
  have hwf : s.cfg.wf = true := (step_eq_next ht).1
  have hc : wordIndex addr ≠ cmdIndex := by
    rw [reservedWord_iff] at hres
    rw [wordIndex_eq, cmdIndex]
    omega
  rw [step_of_access_without_effect hwf rfl] at ht
  obtain ⟨x, hx, ht⟩ := andThen_eq_next.mp ht
  cases ht
  constructor
  · have hwrite : hostAccess (.write addr v) (s.withInput ⟨false, .write addr v, peer⟩) =
        .next (s.withInput ⟨false, .write addr v, peer⟩) := by
      rw [hostAccess, if_neg hc, wordIndex_eq, writeWord_of_reserved _ hres]
    rw [step_of_access_without_effect hwf hwrite, hx]
    rfl
  · rw [step_of_access_without_effect hwf rfl, hx]
    simp only [readData, hread, andThen_next]
    rfl

end Sys2Proof.Machine
end

section
/-! What one host access is to a tick: the word that a read gives of the byte arrays (20_memory.md R82), a read, which
leaves the tick as it is without one (R88), and a write to CMD, in an idle block and in a session (R85(c),
43_host_ops.md R280 to R283). -/

namespace Sys2Proof.Machine

/-! The bytes of a word read -/

/-- Byte `j` of a word of the byte arrays is at its word's address plus `j` (R82). -/
theorem bufferWord_byte (s : State) (w : Nat) {j : Nat} (hj : j < 4) :
    (s.bufferWord w).extractLsb' (8 * j) 8 = s.hostByte (4 * w + j) := by
  show BitVec.extractLsb' (n := 8 + 8 + 8 + 8) (8 * j) 8
    (s.hostByte (4 * w + 3) ++ s.hostByte (4 * w + 2) ++ s.hostByte (4 * w + 1) ++ s.hostByte (4 * w)) = _
  match j with
  | 0 | 1 | 2 | 3 =>
    simp (disch := decide) only [field_append_low, field_append_high, Nat.reduceMul, Nat.reduceSub, Nat.add_zero,
      field_all]

/-- Byte `i` of an array at `base` is found in the word at `base + 4 (i div 4)` (R82). -/
theorem hostRead_byte (s : State) {base i : Nat} (hal : base % 4 = 0) (hlow : 0x028 ≤ base)
    (hhigh : base + i < 2 ^ 12) :
    (s.hostRead (BitVec.ofNat 12 (base + 4 * (i / 4)))).extractLsb' (8 * (i % 4)) 8 = s.hostByte (base + i) := by
  have hword : (BitVec.ofNat 12 (base + 4 * (i / 4))).toNat / 4 = base / 4 + i / 4 := by
    rw [BitVec.toNat_ofNat]
    omega
  rw [hostRead_eq hword, readWord_of_ge s (by omega), bufferWord_byte s _ (by omega),
    show 4 * (base / 4 + i / 4) + i % 4 = base + i by omega]

theorem hostByte_fbuf (s : State) {i : Nat} (h : i < 48) : s.hostByte (fbufBase + i) = s.fbuf i := by
  rw [State.hostByte, if_pos (by omega), Nat.add_sub_cancel_left]

theorem hostByte_txpay (s : State) {i : Nat} (h : i < 48) : s.hostByte (txpayBase + i) = s.txpay i := by
  rw [State.hostByte, if_neg (by rw [fbufBase, txpayBase]; omega), if_pos (by omega), Nat.add_sub_cancel_left]

theorem hostByte_field (s : State) {i : Nat} (h : i < 64) : s.hostByte (fieldBase + i) = s.field i := by
  rw [State.hostByte, if_neg (by rw [fbufBase, fieldBase]; omega), if_neg (by rw [txpayBase, fieldBase]; omega),
    if_pos (by omega), Nat.add_sub_cancel_left]

/-- Settles O21: the word read is four bytes of the window, and the window's bytes at each base are its array's. -/
theorem byteArraysReadLittleEndian : Obligations.ByteArraysReadLittleEndian := by
  intro s i
  refine ⟨fun h => ?_, fun h => ?_, fun h => ?_⟩ <;> rw [hostRead_byte s (by decide) (by decide) (by omega)]
  · exact hostByte_fbuf s h
  · exact hostByte_txpay s h
  · exact hostByte_field s h

/-! A tick with a read -/

/-- Settles O24: neither access changes the state, so both ticks are the session's own, and only `h_rdata` shows which
one it was. -/
theorem hostReadHasNoSideEffect : Obligations.HostReadHasNoSideEffect := by
  intro s t addr peer ht
  have hwf : s.cfg.wf = true := (step_eq_next ht).1
  rw [step_of_access_without_effect hwf rfl] at ht ⊢
  obtain ⟨u, hu, ht⟩ := andThen_eq_next.mp ht
  cases ht
  rw [hu]
  rfl

/-! A tick with a write to CMD -/

/-- A write to CMD runs the instruction of its word (R81, R280). -/
theorem hostAccess_cmd {addr : BitVec 12} (h : addr.extractLsb' 2 10 = 1) (v : Word) (s : State) :
    hostAccess (.write addr v) s = exec (decodeCmd v) s :=
  if_pos (congrArg BitVec.toNat h)

/-- Settles O39: a tick without reset begins with its host access, which is here the word's instruction. -/
theorem stepRunsTheCmdWordsInstruction : Obligations.StepRunsTheCmdWordsInstruction := by
  intro s addr v peer rest hwf haddr hi
  have hn := State.nextInput_of_cons hi
  rw [step_eq_runTick hwf (by rw [hn]), hn, runTick, hostAccess_cmd haddr, hi]
  rfl

/-- In a session the instruction of a CMD word sets REJ or, for NOP, nothing (R282, R283). -/
theorem exec_decodeCmd_of_busy {s : State} (hb : s.busy = true) (v : Word) :
    exec (decodeCmd v) s = .next (s.setAside (if v.extractLsb' 0 3 = 0 then s.rej else true) s.inputs) := by
  have hop : (cmdOp v).toNat = 0 ↔ v.extractLsb' 0 3 = 0 := BitVec.toNat_inj (y := 0#3)
  rw [exec_decodeCmd, issue_of_busy hb]
  simp only [hop]
  rfl

/-- A tick of a session with a write to CMD: the session's own tick and the end of the tick, with REJ as the word's
instruction leaves it. -/
theorem step_cmd_of_busy {s : State} {addr : BitVec 12} (v : Word) (peer : Lines) (hwf : s.cfg.wf = true)
    (hb : s.busy = true) (haddr : addr.extractLsb' 2 10 = 1) :
    step (s.withInput ⟨false, .write addr v, peer⟩) =
      andThen (handshake (resolveLines s.oe peer) s) fun u => .next
        ((u.closeTick (resolveLines s.oe peer) s.inputs (s.tick + 1) none).setAside
          (if v.extractLsb' 0 3 = 0 then s.rej else true) s.inputs) := by
  have hbusy : (s.withInput ⟨false, .write addr v, peer⟩).busy = true := hb
  have hhand (b : Bool) (r : List TickInput) :
      handshake (resolveLines s.oe peer) ((s.withInput ⟨false, .write addr v, peer⟩).setAside b r) =
        andThen (handshake (resolveLines s.oe peer) s) fun u => .next (u.setAside b r) :=
    carries_handshake b r _ s
  rw [step_eq_runTick (s := s.withInput ⟨false, .write addr v, peer⟩) hwf rfl, runTick, State.withInput_nextInput,
    hostAccess_cmd haddr, exec_decodeCmd_of_busy hbusy, andThen_next, if_pos hbusy,
    show (s.withInput ⟨false, .write addr v, peer⟩).oe = s.oe from rfl, hhand]
  cases handshake (resolveLines s.oe peer) s <;> rfl

/-- Settles O54: with the write or without it the tick is the session's own, which does not see REJ. -/
theorem cmdWriteWhileBusyChangesOnlyRej : Obligations.CmdWriteWhileBusyChangesOnlyRej := by
  intro s t addr v peer hb haddr ht
  have hwf : s.cfg.wf = true := (step_eq_next ht).1
  rw [step_of_access_without_effect hwf rfl, if_pos hb] at ht
  obtain ⟨u, hu, ht⟩ := andThen_eq_next.mp ht
  cases ht
  rw [step_cmd_of_busy v peer hwf hb haddr, hu]
  rfl

end Sys2Proof.Machine
end

section
/-! What a receiving session's end leaves in FIELD: with ERR 0 the decoded values of the frame, whatever stood there
before (20_memory.md R85(a), 42_message_catalog.md R246). -/

namespace Sys2Proof.Machine

/-- Field value `j` of the frame in `st.shadow`, read as one of the session's command (R246, R247). -/
def State.receivedField (s : State) (j : Nat) : Byte :=
  match s.cidx with
  | none => 0
  | some k => (extract s.cfg k (s.shadowBytes s.flen.toNat).tail.dropLast).getD j 0

/-- The payload of the frame in `st.shadow` is what its field values come from. -/
theorem receivedField_of_frame {s : State} {k : Cmd} {p : List Byte} {ck : Byte} (hk : s.cidx = some k)
    (hf : s.shadowBytes s.flen.toNat = frameBytes s.cfg k p ck) (j : Nat) :
    s.receivedField j = (extract s.cfg k p).getD j 0 := by
  simp only [State.receivedField, hk, hf, frameBytes, List.tail_cons, List.dropLast_concat]

/-- Clearing the counter and Ack leaves the received frame. -/
theorem acked_receivedField (s : State) (j : Nat) : s.acked.receivedField j = s.receivedField j := by
  unfold State.acked
  split <;> rfl

/-- All 64 FIELD values after they are written at once (R246). -/
theorem field_writeFields (s : State) (m : Memory) {fv : List Byte} (h : fv.length = 64) (j : Nat) :
    (s.setMem (m.writeFields fv)).field j = fv.getD j 0 := by
  unfold State.field
  split
  · rw [State.setMem_mem, Memory.read_writeFields, if_pos (by omega), Nat.add_sub_cancel_left]
  · rw [List.getD_eq_default _ _ (by omega)]

theorem complete_err (err : Completion) (anom : BitVec 45) (c : BitVec 6) (s : State) :
    (complete err anom c s).result.extractLsb' 0 4 = err.code := resultWord_err s err anom c

/-- A received frame that ends with ERR 0 has its decoded values in FIELD (R212, R246). -/
theorem frameDone_field {k : Cmd} {p : List Byte} {ck : Byte} {s : State}
    (hok : (frameDone k p ck s).result.extractLsb' 0 4 = 0) (j : Nat) :
    (frameDone k p ck s).field j = (extract s.cfg k p).getD j 0 := by
  rcases frameDone_cases k p ck s with ⟨-, e⟩ | ⟨-, -, -, e⟩ | ⟨-, -, e⟩ <;> rw [e] at hok ⊢
  · rw [complete_err] at hok
    cases hok
  · rw [complete_err] at hok
    cases hok
  · exact field_writeFields s _ (extract_length ..) j

/-- A byte done that ends the session with ERR 0 is a frame done, and leaves the frame's values in FIELD. -/
theorem rxByteDone_field {s t : State} (h : rxByteDone s = .next t) (hb : s.busy = true) (hend : t.busy = false)
    (hok : t.result.extractLsb' 0 4 = 0) (j : Nat) : t.field j = s.receivedField j := by
  rcases rxByteDone_cases s with ⟨-, -, e⟩ | ⟨k, -, -, e⟩ | ⟨-, -, e⟩ | ⟨-, -, e⟩ <;> rw [e] at h
  · cases h
    rw [complete_err] at hok
    cases hok
  · cases h
    simp [hb] at hend
  · obtain ⟨k, p, ck, hk, -, hf, rfl⟩ := runReceived_eq_next h
    split at hok
    · next hr =>
      rw [if_pos hr, frameDone_field hok, receivedField_of_frame hk hf, State.holding_cfg]
    · next hr =>
      rw [if_neg hr, hb] at hend
      cases hend
  · cases h
    simp [hb] at hend

/-- A tick that ends a receiving session with ERR 0 leaves the received frame's values in FIELD. -/
theorem Moves.field_eq {l : Lines} {s t : State} (h : Moves l s t) (hr : s.role ≠ .sender) (hb : s.busy = true)
    (hend : t.busy = false) (hok : t.result.extractLsb' 0 4 = 0) (j : Nat) : t.field j = s.receivedField j := by
  cases h with
  | expire err he =>
    rw [complete_err] at hok
    rcases he with rfl | rfl <;> cases hok
  | frameSent hr' => exact absurd hr' hr
  | sampled =>
    rcases sample_cases l (s.setCnt 0) with ⟨-, v, e⟩ | ⟨-, -, v, e⟩ <;> rw [e] at hend <;> simp [hb] at hend
  | byteDone _ _ _ _ h => rw [rxByteDone_field h (by simpa using hb) hend hok, acked_receivedField]
  | _ => simp [hb] at hend

/-- A tick with any host access that ends a receiving session with ERR 0 leaves in FIELD the values of the frame that
the session had received at the start of the tick. -/
theorem step_field_of_received {s t : State} {h : HostAccess} {peer : Lines} (hb : s.busy = true)
    (hr : s.role ≠ .sender) (e : step (s.withInput ⟨false, h, peer⟩) = .next t) (hend : t.busy = false)
    (hok : t.result.extractLsb' 0 4 = 0) (j : Nat) : t.field j = s.receivedField j := by
  obtain ⟨u, v, n, d, halike, hu, hv, rfl⟩ := step_withInput_of_busy hb e
  calc v.field j
    _ = u.receivedField j := (handshake_moves hv).field_eq (halike.sameSession.role ▸ hr) hu hend hok j
    _ = s.receivedField j := (halike.eq_of_view (f := fun x => x.receivedField j) fun _ => rfl).symm

/-- Settles O56: the session ends in both ticks with one RESULT, and each leaves the values of the one received
frame. -/
theorem decodedFieldsWinOverAHostWrite : Obligations.DecodedFieldsWinOverAHostWrite := by
  intro s t u h peer hinv hb hop ht hend hok hu j
  have hr : s.role ≠ .sender := fun hr => by
    obtain ⟨k, hk⟩ := (hinv.session hb).sending_of_role hr
    exact hop hk.op
  have same := sessionDoesNotDependOnTheHostAccess s t u .idle h peer hb ht hu
  rw [step_field_of_received hb hr ht hend hok,
    step_field_of_received hb hr hu (same.busy ▸ hend) (same.result ▸ hok)]

end Sys2Proof.Machine
end

section
/-! The decoder and the encoder against each other, in the two streams: the CMD words (30_encoding.md R110, R111, R113)
and the wire frames with the lookup of their command byte (R114 to R117, 41_frame_codec.md R204, R205, R209). -/

namespace Sys2Proof

open Machine

/-! The CMD words -/

/-- Every CMD word is a row's, with CMDSEL as the row asks, and no bit of it is dropped (R110, R113). -/
theorem decodeCmd_wf_and_encode (c : Config) (w : Word) :
    (decodeCmd w).wf = true ∧ encode c (decodeCmd w) = .cmd w := by
  have hw : cmdWord (BitVec.ofNat 3 (cmdOp w).toNat) (cmdIgn w) (cmdSel w) (cmdHigh w) = w := by
    rw [BitVec.ofNat_toNat, BitVec.setWidth_eq, cmdWord_fields]
  have h8 : (cmdOp w).toNat < 8 := (cmdOp w).isLt
  have hr (h : 12 ≤ (cmdSel w).toNat) : reservedSel (cmdSelLo w) = cmdSel w := by
    rw [cmdSelLo_eq, reservedSel_low h]
  unfold decodeCmd
  generalize (cmdOp w).toNat = n at hw h8
  match n, h8 with
  | 0, _ | 1, _ | 4, _ | 5, _ | 6, _ | 7, _ => exact ⟨rfl, congrArg Encoded.cmd hw⟩
  | 2, _ | 3, _ =>
    by_cases h : 12 ≤ (cmdSel w).toNat
    · simp only [if_pos h, Instr.wf, encode, hr h, true_and]
      exact congrArg Encoded.cmd hw
    · simp only [if_neg h, Instr.wf, encode, decide_eq_true (Nat.lt_of_not_le h), true_and]
      exact congrArg Encoded.cmd hw

/-- The two streams have all well-formed instructions between them: the CMD words those of the ten CMD rows, the
frames those of the twelve wire rows. -/
theorem eq_decodeCmd_or_frameInstr_of_wf {i : Instr} (h : i.wf = true) :
    (∃ w, i = decodeCmd w) ∨ ∃ k p ck, i = frameInstr k p ck ∧ p.length = k.len := by
  cases i with
  | nop ign sel high => exact .inl ⟨cmdWord 0 ign sel high, by simp [decodeCmd]⟩
  | listen ign sel high => exact .inl ⟨cmdWord 1 ign sel high, by simp [decodeCmd]⟩
  | send ign sel high =>
    have hsel : sel.toNat < 12 := of_decide_eq_true h
    exact .inl ⟨cmdWord 2 ign sel high, by simp [decodeCmd, hsel]⟩
  | receive ign sel high =>
    have hsel : sel.toNat < 12 := of_decide_eq_true h
    exact .inl ⟨cmdWord 3 ign sel high, by simp [decodeCmd, hsel]⟩
  | reservedOp4 ign sel high => exact .inl ⟨cmdWord 4 ign sel high, by simp [decodeCmd]⟩
  | reservedOp5 ign sel high => exact .inl ⟨cmdWord 5 ign sel high, by simp [decodeCmd]⟩
  | reservedOp6 ign sel high => exact .inl ⟨cmdWord 6 ign sel high, by simp [decodeCmd]⟩
  | reservedOp7 ign sel high => exact .inl ⟨cmdWord 7 ign sel high, by simp [decodeCmd]⟩
  | sendReservedCmdsel ign selLo high =>
    exact .inl ⟨cmdWord 2 ign (reservedSel selLo) high,
      by simp [decodeCmd, reservedSel_ge, cmdSelLo_eq, lo_reservedSel]⟩
  | receiveReservedCmdsel ign selLo high =>
    exact .inl ⟨cmdWord 3 ign (reservedSel selLo) high,
      by simp [decodeCmd, reservedSel_ge, cmdSelLo_eq, lo_reservedSel]⟩
  | init0 p ck => exact .inr ⟨.init0, p, ck, rfl, of_decide_eq_true h⟩
  | init1 p ck => exact .inr ⟨.init1, p, ck, rfl, of_decide_eq_true h⟩
  | init2 p ck => exact .inr ⟨.init2, p, ck, rfl, of_decide_eq_true h⟩
  | flashSetting p ck => exact .inr ⟨.flashSetting, p, ck, rfl, of_decide_eq_true h⟩
  | camSetting p ck => exact .inr ⟨.camSetting, p, ck, rfl, of_decide_eq_true h⟩
  | postflash1 p ck => exact .inr ⟨.postflash1, p, ck, rfl, of_decide_eq_true h⟩
  | postflash2 p ck => exact .inr ⟨.postflash2, p, ck, rfl, of_decide_eq_true h⟩
  | afIllumination p ck => exact .inr ⟨.afIllumination, p, ck, rfl, of_decide_eq_true h⟩
  | redEyeReduction p ck => exact .inr ⟨.redEyeReduction, p, ck, rfl, of_decide_eq_true h⟩
  | modellingLight p ck => exact .inr ⟨.modellingLight, p, ck, rfl, of_decide_eq_true h⟩
  | preflash1 p ck => exact .inr ⟨.preflash1, p, ck, rfl, of_decide_eq_true h⟩
  | preflash2 p ck => exact .inr ⟨.preflash2, p, ck, rfl, of_decide_eq_true h⟩

/-! The lookup of a command byte -/

section lookup

variable {c : Config} {op : Op} {sel : BitVec 4} {pf : Bool}

theorem lookup_postflashCode : lookup c op sel pf postflashCode = some (postflashSelect op sel pf) := if_pos rfl

/-- A byte is UNKNOWN exactly when it is no command's code (R116(c), R204). -/
theorem lookup_eq_none_iff {b : Byte} : lookup c op sel pf b = none ↔ ∀ k, c.code k ≠ b := by
  by_cases hb : b = postflashCode
  · subst hb
    simp only [lookup_postflashCode, reduceCtorEq, false_iff]
    exact fun h => h .postflash1 rfl
  · simp [lookup, hb, List.find?_eq_none, mem_cmdAll]

/-- Under distinct codes a command's own code gives it back, where the code is not the Postflash one (R204). -/
theorem lookup_code (hc : c.wf = true) {k : Cmd} (h1 : k ≠ .postflash1) (h2 : k ≠ .postflash2) :
    lookup c op sel pf (c.code k) = some k := by
  cases hl : lookup c op sel pf (c.code k) with
  | none => exact absurd rfl (lookup_eq_none_iff.mp hl k)
  | some k' =>
    obtain rfl | ⟨-, hk⟩ := codePlace_eq (codePlace_eq_of_code_eq hc (code_of_lookup hl))
    · rfl
    · exact absurd hk (not_or.mpr ⟨h1, h2⟩)

/-- A command's code gives it back in every context that selects it, should it be a Postflash command (R204, R205). -/
theorem lookup_code_of_selected (hc : c.wf = true) {k : Cmd}
    (h1 : k = .postflash1 → postflashSelect op sel pf = .postflash1)
    (h2 : k = .postflash2 → postflashSelect op sel pf = .postflash2) :
    lookup c op sel pf (c.code k) = some k := by
  by_cases hp1 : k = .postflash1
  · rw [code_of_postflash c (.inl hp1), lookup_postflashCode, h1 hp1, hp1]
  by_cases hp2 : k = .postflash2
  · rw [code_of_postflash c (.inr hp2), lookup_postflashCode, h2 hp2, hp2]
  exact lookup_code hc hp1 hp2

/-- A frame that decodes is read as the command that its first byte gives (R117, R204). -/
theorem decodeFrame_ok {bytes : List Byte} {i : Instr} (h : decodeFrame c op sel pf bytes = .ok i) :
    ∃ k, decodeFrameAs c k bytes = .ok i := by
  unfold decodeFrame at h
  split at h
  · cases h
  · split at h
    · cases h
    · next k _ => exact ⟨k, h⟩

/-- The frame of a command whose code the lookup gives back decodes as that command's instruction. -/
theorem decodeFrame_frameBytes {k : Cmd} (hl : lookup c op sel pf (c.code k) = some k) {p : List Byte} (ck : Byte)
    (hp : p.length = k.len) : decodeFrame c op sel pf (frameBytes c k p ck) = .ok (frameInstr k p ck) := by
  rw [← decodeFrameAs_frameBytes c k p ck hp]
  simp only [decodeFrame, frameBytes, hl]

end lookup

/-- Settles O1: the instruction is a CMD word's, whose encoding is that word, or a frame's, whose command the lookup
gives back. -/
theorem decodeOfEncodeIsTheInstruction : Obligations.DecodeOfEncodeIsTheInstruction := by
  intro c op sel pf i hc hi h1 h2
  obtain ⟨w, rfl⟩ | ⟨k, p, ck, rfl, hp⟩ := eq_decodeCmd_or_frameInstr_of_wf hi
  · rw [(decodeCmd_wf_and_encode c w).2]
    rfl
  · rw [encode_frameInstr]
    refine decodeFrame_frameBytes (lookup_code_of_selected hc ?_ ?_) ck hp
    · rintro rfl
      exact h1 p ck rfl
    · rintro rfl
      exact h2 p ck rfl

/-- Settles O2: a CMD word is the word of its fields, and a frame that decodes is its command byte, payload and
checksum. -/
theorem encodeOfTheDecodedIsTheEncoded : Obligations.EncodeOfTheDecodedIsTheEncoded := by
  intro c op sel pf
  refine ⟨decodeCmd_wf_and_encode c, fun e i h => ?_⟩
  cases e with
  | cmd w =>
    cases h
    exact decodeCmd_wf_and_encode c w
  | frame bytes =>
    obtain ⟨k, hk⟩ := decodeFrame_ok h
    obtain ⟨p, ck, rfl, hp, rfl⟩ := decodeFrameAs_ok hk
    exact ⟨by rw [frameInstr_wf, decide_eq_true hp], encode_frameInstr c k p ck⟩

/-- Settles O3: a CMD word runs as the issue of its OP and CMDSEL. -/
theorem ignoredCmdBitsDoNotMatter : Obligations.IgnoredCmdBitsDoNotMatter := by
  intro v w s hop hsel
  have hop' : cmdOp v = cmdOp w := hop
  have hsel' : cmdSel v = cmdSel w := hsel
  rw [exec_decodeCmd, exec_decodeCmd, hop', hsel']

/-- Settles O5: the Postflash code by the session's selection, any other code by its command, no code by nothing. -/
theorem lookupOfCommandByte : Obligations.LookupOfCommandByte := fun _ _ _ _ hc =>
  ⟨lookup_postflashCode, fun _ h1 h2 => lookup_code hc h1 h2, fun _ h => lookup_eq_none_iff.mpr h⟩

/-- Settles O4: each word is closed, and the frame is AF_Illumination's with its two payload bytes, whatever the
configuration. -/
theorem wordsOfTheTestVectorsDecode : Obligations.WordsOfTheTestVectorsDecode := by
  refine ⟨by decide, by decide, by decide, by decide, by decide, by decide, fun c => ?_⟩
  exact decodeFrameAs_frameBytes c .afIllumination [0x01, 0x00] 0xD2 rfl

end Sys2Proof
end

section
/-! The samples of one byte's eight cells: the bits shift into `st.shreg`, most significant first, and the eighth one
ends the byte (30_encoding.md R118, 40_handshake.md R162). -/

namespace Sys2Proof.Machine

/-- The shift register `x` after the first `n` bits of `b` in transfer order: the window of `x ++ b` that begins `n`
bits into it. -/
def shiftedIn (x b : Byte) (n : Nat) : Byte := (x ++ b).extractLsb' (8 - n) 8

theorem shiftedIn_zero (x b : Byte) : shiftedIn x b 0 = x := by
  rw [shiftedIn, field_append_high x b _ _ (by decide), field_all]

theorem shiftedIn_eight (x b : Byte) : shiftedIn x b 8 = b := by
  rw [shiftedIn, field_append_low x b _ _ (by decide), field_all]

/-- The next bit of the byte moves the window by one. -/
theorem shiftedIn_succ (x b : Byte) {n : Nat} (h : n < 8) :
    (shiftedIn x b n).extractLsb' 0 7 ++ BitVec.ofBool (wireBit b n) = shiftedIn x b (n + 1) := by
  apply BitVec.eq_of_getLsbD_eq
  intro i hi
  cases i with
  | zero =>
    rw [getLsbD_append_low _ _ 0 (by decide), getLsbD_ofBool_zero, shiftedIn, BitVec.getLsbD_extractLsb',
      getLsbD_append_low _ _ _ (by omega), wireBit]
    simp [show 8 - (n + 1) = 7 - n by omega]
  | succ i =>
    rw [getLsbD_append_high _ _ _ (by omega)]
    simp only [shiftedIn, BitVec.getLsbD_extractLsb', Nat.add_sub_cancel, Nat.zero_add,
      decide_eq_true hi, decide_eq_true (show i < 7 by omega), decide_eq_true (show i < 8 by omega), Bool.true_and,
      show 8 - n + i = 8 - (n + 1) + (i + 1) by omega]

/-- A sample before the byte's last cell goes to the next cell. -/
theorem sample_of_cell {l : Lines} {s : State} (h : s.hs = .start ∨ s.bitn.toNat < 7) :
    sample l s = (s.setShreg (s.shreg.extractLsb' 0 7 ++ BitVec.ofBool l.data)).setPlace .bit (s.bitn + 1) s.ph :=
  if_pos h

/-- The sample of the byte's last cell puts the byte into `st.shadow` and goes to the acknowledge. -/
theorem sample_of_last_cell {l : Lines} {s : State} (hh : s.hs = .bit) (hb : s.bitn = 7) {v : Byte}
    (hv : s.shreg.extractLsb' 0 7 ++ BitVec.ofBool l.data = v) :
    sample l s = ((s.setShreg v).setShadow (s.shadow.write s.offset.toNat v)).setPlace .ack 7 false := by
  subst hv
  rw [sample, if_neg (by simp [hh, hb]), hb]

/-- The first `n` bits of `b` sampled one after the other, the other lines at the levels `l`. -/
def sampleBits (b : Byte) (l : Lines) (n : Nat) (s : State) : State :=
  (List.range n).foldl (fun u i => sample { l with data := wireBit b i } u) s

theorem sampleBits_succ (b : Byte) (l : Lines) (n : Nat) (s : State) :
    sampleBits b l (n + 1) s = sample { l with data := wireBit b n } (sampleBits b l n s) := by
  simp [sampleBits, List.range_succ]

/-- Up to seven samples from the byte's first cell shift that many bits in; the first of them takes START to BIT. -/
theorem sampleBits_of_le (b : Byte) (l : Lines) {s : State} (hb : s.bitn = 0) {n : Nat} (hn : n < 7) :
    sampleBits b l (n + 1) s =
      (s.setShreg (shiftedIn s.shreg b (n + 1))).setPlace .bit (BitVec.ofNat 3 (n + 1)) s.ph := by
  induction n with
  | zero =>
    rw [sampleBits_succ]
    show sample _ s = _
    rw [sample_of_cell (.inr (by simp [hb])), hb, ← shiftedIn_succ _ _ (by decide), shiftedIn_zero]
    rfl
  | succ n ih =>
    rw [sampleBits_succ, ih (by omega), sample_of_cell (.inr (by simp; omega))]
    simp only [State.setPlace_shreg, State.setShreg_shreg, shiftedIn_succ _ _ (show n + 1 < 8 by omega),
      State.setPlace_bitn, State.setPlace_ph, BitVec.ofNat_add (n + 1) 1]
    rfl

/-- All eight samples leave the byte in `st.shreg` and at its place in `st.shadow`. -/
theorem sampleBits_eight (b : Byte) (l : Lines) {s : State} (hb : s.bitn = 0) :
    sampleBits b l 8 s = ((s.setShreg b).setShadow (s.shadow.write s.offset.toNat b)).setPlace .ack 7 false := by
  rw [sampleBits_succ, sampleBits_of_le b l hb (by decide), sample_of_last_cell (v := b) rfl rfl]
  · rfl
  · exact (shiftedIn_succ _ _ (by decide)).trans (shiftedIn_eight _ _)

/-- Settles O35: the eighth sample is the one that stores the byte, after seven that shift its bits in. -/
theorem eightSamplesAssembleTheByte : Obligations.EightSamplesAssembleTheByte := by
  intro b l s _ hb
  exact ⟨_, sampleBits_eight b l hb, rfl, fun i => by simp⟩

end Sys2Proof.Machine
end

section
/-! The rules of 40_handshake.md R154 to R166, one tick of a session each: the wait or hold that runs in the session's
place, and the state at its end, at its bound and while it counts. -/

namespace Sys2Proof.Machine

/-- All four lines are at 1 on the idle bus and on no other (R119). -/
theorem allHigh_iff_idle (l : Lines) : (l.sync && l.ack && l.data && l.clock) = true ↔ l = Lines.idle := by
  cases l
  simp [Lines.idle, and_assoc]

/-! The sender -/

/-- A byte is loaded with its most significant bit on Data (R155, R159). -/
theorem startByte_eq (b : Byte) (s : State) :
    startByte b s =
      { s with shreg := b, hs := .bit, bitn := 0, ph := false, oe := { s.oe with data := !b.getLsbD 7 } } := rfl

/-- Settles O29: the wait for the idle bus, R154. -/
theorem senderWaitsForAnIdleBus : Obligations.SenderWaitsForAnIdleBus := by
  intro l s hr hh
  rw [handshake_senderIdle l hr hh, senderIdle, waitFor]
  simp only [allHigh_iff_idle]
  rfl

/-- Settles O30: the hold of the setup, R155. -/
theorem senderSetsUpTheFirstByte : Obligations.SenderSetsUpTheFirstByte := by
  intro l s hr hh
  rw [handshake_senderStart l hr hh, senderStart, holdFor, startByte_eq]
  rfl

/-- The next cell's bit is the one below the bit just sent. -/
theorem wireBit_succ (b : Byte) (n : Nat) : wireBit b (n + 1) = b.getLsbD (6 - n) := by
  rw [wireBit, show 7 - (n + 1) = 6 - n by omega]

/-- The end of a cell: the next one begins in the same handshake state, or the byte ends. -/
theorem senderCellDone_of_bit {s : State} (hh : s.hs = .bit) :
    senderCellDone s =
      if s.bitn.toNat < 7 then
        { s with
          bitn := s.bitn + 1, ph := false,
          oe := { s.oe with clock := false, data := !s.shreg.getLsbD (6 - s.bitn.toNat) } }
      else { s with hs := .ack, ph := false, oe := { s.oe with clock := false, data := false } } := by
  rw [senderCellDone, wireBit_succ, ← hh]
  rfl

/-- Settles O31: in each half the hold counts or ends, and the end of the second half is the end of the cell. -/
theorem senderDrivesABitCell : Obligations.SenderDrivesABitCell := by
  intro l s hr hh
  by_cases hp : s.ph = false
  · rw [if_pos hp, handshake_senderBitHigh l hr hh hp, senderBitHigh]
    rcases holdFor_cases s.latched.thalf.toNat _ s with ⟨hn, e⟩ | ⟨hn, e⟩ <;> rw [e]
    · rw [if_neg (by omega)]
      rfl
    · rw [if_pos hn]
      rfl
  · rw [if_neg hp, handshake_senderBitLow l hr hh (Bool.eq_true_of_not_eq_false hp), senderBitLow]
    rcases holdFor_cases s.latched.thalf.toNat _ s with ⟨hn, e⟩ | ⟨hn, e⟩ <;> rw [e]
    · rw [if_neg (by omega), senderCellDone_of_bit (s := s.setCnt 0) hh, apply_ite Host.Outcome.next]
      rfl
    · rw [if_pos hn]
      rfl

/-- Settles O32: the two waits of the acknowledge, R157 and R158, and the sender's byte done, R159. -/
theorem senderWaitsForTheAcknowledge : Obligations.SenderWaitsForTheAcknowledge := by
  intro l s hr hh
  by_cases hp : s.ph = false
  · rw [if_pos hp, handshake_senderAckLow l hr hh hp, senderAckLow, waitFor]
    simp only [Bool.not_eq_true']
    rfl
  · rw [if_neg hp, handshake_senderAckHigh l hr hh (Bool.eq_true_of_not_eq_false hp), senderAckHigh, waitFor,
      senderByteDone, startByte_eq]
    rfl

/-! The receiver and the observer -/

/-- Settles O33: the wait for the fall of Sync, R160. -/
theorem receiverAwaitsTheFallOfSync : Obligations.ReceiverAwaitsTheFallOfSync := by
  intro l s hr hh
  rw [handshake_awaitStart l hr hh, awaitStart, waitFor]
  simp only [State.syncFell, Bool.and_eq_true, Bool.not_eq_true']
  rfl

/-- Settles O34: the wait for the fall of Clock, R161, and the sample at its end, R162. -/
theorem receiverSamplesAtTheFallOfClock : Obligations.ReceiverSamplesAtTheFallOfClock := by
  intro l s hr hh
  rw [handshake_awaitCell l hr hh, awaitCell, waitFor]
  simp only [State.clockFell, Bool.and_eq_true, Bool.not_eq_true', sample, apply_ite Host.Outcome.next]
  rfl

/-- Settles O36: the wait for Clock released and the hold of Ack, R163. -/
theorem receiverAcknowledgesEachByte : Obligations.ReceiverAcknowledgesEachByte := by
  intro l s hr hh
  by_cases hp : s.ph = false
  · rw [if_pos hp, handshake_receiverAckStart l hr hh hp]
    rfl
  · rw [if_neg hp, handshake_receiverAckHold l hr hh (Bool.eq_true_of_not_eq_false hp)]
    rfl

/-- Settles O37: the two waits of the observed acknowledge, R164. -/
theorem observerWatchesTheAcknowledge : Obligations.ObserverWatchesTheAcknowledge := by
  intro l s hr hh
  by_cases hp : s.ph = false
  · rw [if_pos hp, handshake_observerAckLow l hr hh hp, observerAckLow, waitFor]
    simp only [Bool.not_eq_true']
    rfl
  · rw [if_neg hp, handshake_observerAckHigh l hr hh (Bool.eq_true_of_not_eq_false hp)]
    rfl

/-- The byte done of a frame's first byte is that of its command byte. -/
theorem rxByteDone_of_first {s : State} (h0 : s.offset = 0) : rxByteDone s = commandByteDone s := by
  rw [rxByteDone, if_pos (by rw [h0]; rfl)]

/-- Settles O38: the command byte with and without a command, and a later byte. -/
theorem byteDoneLooksUpTheCommandOrGoesOn : Obligations.ByteDoneLooksUpTheCommandOrGoesOn := by
  intro s
  refine ⟨fun h0 hk => ?_, fun k h0 hk => ?_, fun h0 hl => ?_⟩
  · rw [rxByteDone_of_first h0, commandByteDone, hk]
    rfl
  · simp only [rxByteDone_of_first h0, commandByteDone, hk, nextByte, State.setFrame_offset, h0, Cmd.flen]
    rfl
  · have h1 : s.offset + 1 ≠ 1 := fun h => h0 (by simpa using h)
    rw [rxByteDone, if_neg h1, if_neg hl]
    rfl

end Sys2Proof.Machine
end

section
/-! What a whole tick does outside a session, and in the tick that ends a received frame (40_handshake.md R166, R170,
41_frame_codec.md R212). -/

namespace Sys2Proof.Machine

/-- Settles O14: every wire frame runs by `receiveFrame`, which asks for a receiving session. -/
theorem frameOutsideAReceiveHasNoEffect : Obligations.FrameOutsideAReceiveHasNoEffect := by
  intro k p ck s hr
  rw [exec_frameInstr, receiveFrame, hr]
  rfl

/-- A tick without reset and without a host access is the session's own, if there is one. -/
theorem step_of_idle_host {s : State} {peer : Lines} {rest : List TickInput} (hwf : s.cfg.wf = true)
    (hi : s.inputs = ⟨false, .idle, peer⟩ :: rest) :
    step s = andThen (if s.busy then handshake (resolveLines s.oe peer) s else .next s) fun u =>
      .next (u.closeTick (resolveLines s.oe peer) rest (s.tick + 1) none) := by
  have hn := State.nextInput_of_cons hi
  rw [step_eq_runTick hwf (by rw [hn]), hn, runTick, hi]
  rfl

/-- Settles O43: without a session only the end of the tick is left. -/
theorem restingBlockOnlySamplesItsLines : Obligations.RestingBlockOnlySamplesItsLines := by
  intro s peer rest hwf hb hi
  rw [step_of_idle_host hwf hi, if_neg (by simp [hb])]
  rfl

/-- The tick that ends a byte's acknowledge runs the byte done (R163, R164). -/
theorem handshake_ackEnd {l : Lines} {s : State} (hh : s.hs = .ack) (hp : s.ph = true)
    (hr : (s.role = .observer ∧ l.ack = true) ∨ (s.role = .receiver ∧ s.latched.tackhold.toNat ≤ s.cnt.toNat + 1)) :
    handshake l s = rxByteDone s.acked := by
  rcases hr with ⟨hr, ha⟩ | ⟨hr, hn⟩
  · rw [handshake_observerAckHigh l hr hh hp, observerAckHigh, waitFor, if_pos ha, State.acked, if_neg (by simp [hr])]
  · rw [handshake_receiverAckHold l hr hh hp, receiverAckHold, holdFor, if_pos hn, State.acked, if_pos hr]
    rfl

theorem State.acked_receiving (s : State) : s.acked.receiving = s.receiving := by
  simp only [State.receiving, State.acked_busy, State.acked_op]

/-- Clearing the counter and Ack leaves the received frame's instruction. -/
theorem State.acked_receivedInstr (s : State) : s.acked.receivedInstr = s.receivedInstr := by
  unfold State.acked
  split <;> rfl

/-- In a receiving session a frame's instruction does not see that the counter and Ack were cleared. -/
theorem exec_frameInstr_acked {s : State} (hr : s.receiving = true) (k : Cmd) (p : List Byte) (ck : Byte) :
    exec (frameInstr k p ck) s.acked = exec (frameInstr k p ck) s := by
  simp only [exec_frameInstr, receiveFrame, State.acked_receiving, hr, if_true, State.acked_cfg, frameDone_acked]

/-- The tick of a session that ends a received frame runs the frame's instruction (R166, R212). -/
theorem handshake_frameEnd {l : Lines} {s : State} {i : Instr} (h : s.AtFrameEnd l) (hi : s.receivedInstr = .ok i) :
    handshake l s = exec i s := by
  obtain ⟨k, p, ck, rfl⟩ := receivedInstr_isFrame hi
  have hfirst : s.acked.offset + 1 ≠ 1 := by rw [State.acked_offset]; exact h.notFirst
  have hlast : s.acked.offset + 1 = s.acked.flen := by rw [State.acked_offset, State.acked_flen]; exact h.last
  calc handshake l s
    _ = rxByteDone s.acked := handshake_ackEnd h.hs h.ph h.role
    _ = runReceived s.acked := by rw [rxByteDone, if_neg hfirst, if_pos hlast]
    _ = exec (frameInstr k p ck) s.acked := by rw [runReceived, State.acked_receivedInstr, hi]
    _ = exec (frameInstr k p ck) s := exec_frameInstr_acked h.receiving k p ck

theorem State.busy_of_receiving {s : State} (h : s.receiving = true) : s.busy = true := by
  rw [State.receiving, Bool.and_eq_true] at h
  exact h.1

/-- Settles O40: the session's own tick is the frame's instruction. -/
theorem stepRunsTheReceivedFramesInstruction : Obligations.StepRunsTheReceivedFramesInstruction := by
  intro s peer rest i hwf hin hend hi
  rw [step_of_idle_host hwf hin, State.busy_of_receiving hend.receiving, if_pos rfl, handshake_frameEnd hend hi]
  rfl

end Sys2Proof.Machine
end

section
/-! Sessions over several ticks: a session keeps its role and its latched parameters, it ends within the budget that
`State.ticksLeft` counts, and a wait for the start ends in exactly its bound (40_handshake.md R160, R164, R169,
70_reset_and_hazards.md R364). -/

namespace Sys2Proof.Machine

/-! What a session keeps while it goes on -/

/-- A byte done that ends no session keeps its role and its latched parameters. -/
theorem rxByteDone_role_latched {s t : State} (h : rxByteDone s = .next t) (ht : t.busy = true) :
    t.role = s.role ∧ t.latched = s.latched := by
  rcases rxByteDone_cases s with ⟨-, -, e⟩ | ⟨k, -, -, e⟩ | ⟨-, -, e⟩ | ⟨-, -, e⟩ <;> rw [e] at h
  · cases h
    cases ht
  · cases h
    simp
  · obtain ⟨k, p, ck, -, -, -, rfl⟩ := runReceived_eq_next h
    split at ht
    · simp at ht
    · next hr => rw [if_neg hr]; simp
  · cases h
    simp

/-- A session that goes on keeps its role and its latched parameters (10_state.md R52, R63). -/
theorem Moves.role_latched {l : Lines} {s t : State} (h : Moves l s t) (ht : t.busy = true) :
    t.role = s.role ∧ t.latched = s.latched := by
  cases h with
  | expire => cases ht
  | frameSent => cases ht
  | sampled => rcases sample_cases l (s.setCnt 0) with ⟨-, v, e⟩ | ⟨-, -, v, e⟩ <;> rw [e] <;> simp
  | byteDone _ _ _ _ h =>
    obtain ⟨hrole, hlatched⟩ := rxByteDone_role_latched h ht
    exact ⟨hrole.trans s.acked_role, hlatched.trans s.acked_latched⟩
  | _ => simp

/-- A step from a session to a session: the host access leaves the session, whose own tick then goes on. -/
theorem step_of_session {s t : State} (hinv : s.Inv) (hb : s.busy = true) (h : step s = .next t)
    (ht : t.busy = true) :
    ∃ u l v, s.SameSession u ∧ u.busy = true ∧ u.InSession ∧ Moves l u v ∧ v.busy = true ∧
      ∃ l' r n d, t = v.closeTick l' r n d := by
  obtain ⟨-, ⟨-, rfl⟩ | ⟨-, u, v, hu, hv, rfl⟩⟩ := step_eq_next h
  · cases ht
  · rw [if_pos hb] at hv
    have same := hostAccess_of_busy hb hu
    exact ⟨u, _, v, same, same.busy ▸ hb, hostAccess_inSession hb (hinv.session hb) hu, handshake_moves hv, ht,
      _, _, _, _, rfl⟩

/-- From tick to tick a session keeps its role and its latched parameters. -/
theorem step_role_latched {s t : State} (hinv : s.Inv) (hb : s.busy = true) (h : step s = .next t)
    (ht : t.busy = true) : t.role = s.role ∧ t.latched = s.latched := by
  obtain ⟨u, l, v, same, -, -, hmoves, hv, -, -, -, -, rfl⟩ := step_of_session hinv hb h ht
  obtain ⟨hrole, hlatched⟩ := hmoves.role_latched hv
  exact ⟨hrole.trans same.role.symm, hlatched.trans same.latched.symm⟩

/-! Passive mode -/

/-- An observer pulls no line (R164, R172). -/
theorem oe_of_observer {s : State} (hs : s.InSession) (hr : s.role = .observer) : s.oe = Lines.released := by
  rw [hs.oe, State.outputs, hr]

/-- The role of a LISTEN session. -/
theorem role_of_listen {s : State} (hs : s.InSession) (ho : s.op = .listen) : s.role = .observer := by
  obtain ⟨-, k, hk⟩ | hear := hs.role
  · rw [hk.op] at ho
    cases ho
  · obtain ⟨-, ho', -⟩ | ⟨hr, -⟩ := hear.op
    · rw [ho'] at ho
      cases ho
    · exact hr

/-- Settles O48: an observer pulls no line, and the tick leaves an observer or a block at rest. -/
theorem listenDrivesNoLine : Obligations.ListenDrivesNoLine := by
  intro s t hinv hb ho h
  have hrole := role_of_listen (hinv.session hb) ho
  have htinv : t.Inv := stepKeepsTheInvariant s t hinv h
  refine ⟨oe_of_observer (hinv.session hb) hrole, ?_⟩
  cases ht : t.busy with
  | false => exact (htinv.rest ht).oe
  | true => exact oe_of_observer (htinv.session ht) ((step_role_latched hinv hb h ht).1.trans hrole)

/-! The end of every session -/

theorem State.InSession.ticksLeft_pos {s : State} (hs : s.InSession) : 0 < s.ticksLeft := by
  have := hs.afterWait_lt
  rw [State.ticksLeft]
  omega

/-- Every step takes one tick's inputs off the list. -/
theorem step_inputs {s t : State} (h : step s = .next t) : t.inputs = s.inputs.tail := by
  obtain ⟨-, ⟨-, rfl⟩ | ⟨-, u, v, -, -, rfl⟩⟩ := step_eq_next h <;> rfl

/-- With inputs listed the coming tick takes the first of them. -/
theorem nextInput_mem {s : State} (h : 0 < s.inputs.length) : s.nextInput ∈ s.inputs := by
  obtain ⟨i, rest, hi⟩ := List.exists_cons_of_length_pos h
  rw [State.nextInput_of_cons hi, hi]
  exact List.mem_cons_self

/-- Settles O50, by induction on the budget: a session that does not end in a tick has used up some of it. -/
theorem everySessionEnds : Obligations.EverySessionEnds := by
  intro s n
  induction n generalizing s with
  | zero =>
    intro hinv _ hb hle
    exact absurd (hinv.session hb).ticksLeft_pos (by omega)
  | succ n ih =>
    intro hinv hwf hb hle hlen hrst
    obtain ⟨t, h⟩ := stepNeverStops s hinv hwf
    have hinputs := step_inputs h
    cases ht : t.busy with
    | false => exact ⟨1, t, by omega, by rw [run_succ h, run_zero], ht⟩
    | true =>
      have hlt := everySessionTickUsesUpItsBudget s t hinv hb (hrst _ (nextInput_mem (by omega))) h ht
      obtain ⟨m, u, hm, hrun, hu⟩ := ih t (stepKeepsTheInvariant s t hinv h) (step_cfg h ▸ hwf) ht (by omega)
        (by rw [hinputs, List.length_tail]; omega)
        (fun i hi => hrst i (List.mem_of_mem_tail (hinputs ▸ hi)))
      exact ⟨m + 1, u, by omega, by rw [run_succ h, hrun], hu⟩

/-! The wait for the start -/

/-- A receiving session in its wait for the start, `c` ticks of which are spent, itself not pulling Sync (R160). -/
structure State.AwaitsStart (s : State) (c : Nat) : Prop where
  cfg : s.cfg.wf = true
  busy : s.busy = true
  role : s.role = .receiver ∨ s.role = .observer
  hs : s.hs = .idle
  cnt : s.cnt.toNat = c
  oe : s.oe.sync = false

/-- A tick in which Sync is released by the peer, and no reset. -/
def SyncHigh (i : TickInput) : Prop := i.rst = false ∧ i.peer.sync = false

/-- Without a pull of Sync, a tick of such a session counts, or at its bound ends the session with Timeout. -/
theorem step_awaitsStart {s : State} {c : Nat} (h : s.AwaitsStart c) (hq : SyncHigh s.nextInput) :
    ∃ t, step s = .next t ∧ t.latched = s.latched ∧ t.inputs = s.inputs.tail ∧
      (c + 1 < s.latched.tmo.toNat → t.AwaitsStart (c + 1)) ∧
      (s.latched.tmo.toNat ≤ c + 1 →
        t.busy = false ∧ t.done = true ∧ t.hs = .timedOut ∧ t.result.extractLsb' 0 4 = 1) := by
  obtain ⟨u, hu⟩ := hostAccess_next s.nextInput.host s
  have same := hostAccess_of_busy h.busy hu
  have hc : u.cnt.toNat = c := same.cnt ▸ h.cnt
  have hoe := h.oe
  have hfall : u.syncFell (resolveLines s.oe s.nextInput.peer) = false := by
    simp [State.syncFell, resolveLines, hq.2, hoe]
  have e : step s = _ := step_eq_runTick h.cfg hq.1
  rw [runTick, hu, andThen_next, if_pos h.busy,
    handshake_awaitStart _ (same.role ▸ h.role : u.role = .receiver ∨ u.role = .observer) (same.hs ▸ h.hs),
    awaitStart] at e
  rcases waitFor_cases (u.syncFell (resolveLines s.oe s.nextInput.peer)) u.tmoBound _ (finish .timeout 0) u
    with ⟨hc', -⟩ | ⟨-, hn, e'⟩ | ⟨-, hn, e'⟩
  · rw [hfall] at hc'
    cases hc'
  all_goals
    rw [e'] at e
    rw [State.tmoBound, ← same.latched, hc] at hn
  · exact ⟨_, e, same.latched.symm, rfl, fun hlt => absurd hlt (by omega), fun _ =>
      ⟨rfl, rfl, rfl, complete_err .timeout 0 0 u⟩⟩
  · have hcnt := cnt_succ (c := u.cnt) (n := 2 ^ 32) (by have := s.latched.tmo.isLt; omega) le_rfl
    refine ⟨_, e, same.latched.symm, rfl, fun _ => ⟨(hostAccess_keeps hu).1 ▸ h.cfg, same.busy ▸ h.busy,
      same.role ▸ h.role, same.hs ▸ h.hs, ?_, same.oe ▸ h.oe⟩, fun hle => absurd hle (by omega)⟩
    simp only [State.closeTick_cnt, State.setCnt_cnt, hcnt, hc]

/-- The wait counts through ticks without a pull of Sync, as long as they leave it below its bound. -/
theorem run_awaitsStart (m : Nat) :
    ∀ (s : State) (c : Nat), s.AwaitsStart c → (∀ i ∈ s.inputs, SyncHigh i) → m ≤ s.inputs.length →
      c + m < s.latched.tmo.toNat →
      ∃ t, Host.Core.run core m s = .next t ∧ t.AwaitsStart (c + m) ∧ t.latched = s.latched ∧
        t.inputs = s.inputs.drop m := by
  induction m with
  | zero => exact fun s c h _ _ _ => ⟨s, rfl, h, rfl, rfl⟩
  | succ m ih =>
    intro s c h hq hlen hb
    obtain ⟨u, hu, hul, hui, hcount, -⟩ := step_awaitsStart h (hq _ (nextInput_mem (by omega)))
    obtain ⟨t, ht, hw, htl, hti⟩ := ih u (c + 1) (hcount (by omega))
      (fun i hi => hq i (List.mem_of_mem_tail (hui ▸ hi))) (by rw [hui, List.length_tail]; omega)
      (by rw [hul]; omega)
    refine ⟨t, by rw [run_succ hu, ht], ?_, htl.trans hul, ?_⟩
    · rw [Nat.add_comm m, ← Nat.add_assoc]
      exact hw
    · rw [hti, hui, List.drop_tail]

/-- Settles O52: the wait counts up to the tick before its bound, and the next one completes with Timeout. -/
theorem listenTimesOutAfterExactlyTmo : Obligations.ListenTimesOutAfterExactlyTmo := by
  intro s n hwf hb hr hh hc ho hn h1 hlen hq
  have h0 : s.AwaitsStart 0 := ⟨hwf, hb, hr, hh, by rw [hc]; rfl, ho⟩
  constructor
  · intro m hm
    obtain ⟨t, ht, hw, -⟩ := run_awaitsStart m s 0 h0 hq (by omega) (by omega)
    exact ⟨t, ht, hw.busy⟩
  · obtain ⟨m, rfl⟩ : ∃ m, n = m + 1 := ⟨n - 1, by omega⟩
    obtain ⟨u, hu, hw, hul, hui⟩ := run_awaitsStart m s 0 h0 hq (by omega) (by omega)
    have hmem : u.nextInput ∈ u.inputs := nextInput_mem (by rw [hui, List.length_drop]; omega)
    obtain ⟨t, ht, -, -, -, hend⟩ := step_awaitsStart hw (hq _ (List.mem_of_mem_drop (hui ▸ hmem)))
    exact ⟨t, by rw [run_add hu, run_succ ht, run_zero], hend (by rw [hul]; omega)⟩

end Sys2Proof.Machine
end

section
/-! The budget of a session with its frame's own length: the ticks spent and those left stay within the bound of
70_reset_and_hazards.md R364, with the longest frame while the length is unknown and with the frame's own from its
command byte on. -/

namespace Sys2Proof.Machine

theorem byteTicks_eq {s t : State} (hrole : t.role = s.role) (hlatched : t.latched = s.latched) :
    t.byteTicks = s.byteTicks := by
  simp only [State.byteTicks, State.tbitBound, State.tackBound, State.thalfBound, State.tackholdBound, hrole, hlatched]

theorem frameLimit_eq {s t : State} (hflen : t.flen = s.flen) : t.frameLimit = s.frameLimit := by
  rw [State.frameLimit, State.frameLimit, hflen]

theorem frameLimit_pos (s : State) : 0 < s.frameLimit := by
  unfold State.frameLimit
  split
  · decide
  · next h =>
    have : s.flen.toNat ≠ 0 := fun h0 => h (BitVec.eq_of_toNat_eq h0)
    omega

/-- In a frame's first byte that byte and the later ones are the whole frame. -/
theorem laterTicks_of_first {s : State} (ho : s.offset = 0) :
    s.laterTicks + s.byteTicks = s.frameLimit * s.byteTicks := by
  have hlater : s.laterTicks = (s.frameLimit - 1) * s.byteTicks := by
    rw [State.laterTicks, ho]
    rfl
  rw [hlater, ← Nat.succ_mul, Nat.succ_eq_add_one, Nat.sub_add_cancel (frameLimit_pos s)]

/-! At issue -/

/-- The ticks that a session in its wait for the start can still take before the first byte: the wait, and the sender's
setup (R154, R155, R160). -/
def State.ticksToFirstByte (s : State) : Nat :=
  match s.role with
  | .sender => (s.tmoBound - s.cnt.toNat) + s.thalfBound
  | _ => s.tmoBound - s.cnt.toNat

/-- In the wait for the start the whole frame is still to come. -/
theorem ticksLeft_of_idle {s : State} (hh : s.hs = .idle) (hr : s.role ≠ .none) (ho : s.offset = 0) :
    s.ticksLeft = s.ticksToFirstByte + s.frameLimit * s.byteTicks := by
  have hcur : s.currentTicks = s.ticksToFirstByte + s.byteTicks := by
    unfold State.currentTicks State.ticksToFirstByte
    cases hrole : s.role with
    | none => exact absurd hrole hr
    | _ => rw [hh]
  rw [State.ticksLeft, hcur, ← laterTicks_of_first ho, Nat.add_assoc, Nat.add_comm s.byteTicks]

/-! From tick to tick -/

/-- The first cell of a byte has no more ticks to take than a byte has. -/
theorem currentTicks_le_byteTicks {s : State} (hh : s.hs = .bit) (hb : s.bitn = 0) (hp : s.ph = false) :
    s.currentTicks ≤ s.byteTicks := by
  rw [currentTicks_eq (by rw [hh]; decide)]
  unfold State.bound State.afterWait State.byteTicks
  rw [hh, hb, hp]
  cases s.role <;> simp <;> omega

/-- The place of a session that has just found its frame's command: the first cell of the second byte (R166). -/
structure State.FindsLength (t : State) (k : Cmd) : Prop where
  flen : t.flen = BitVec.ofNat 6 k.flen
  offset : t.offset = 1
  hs : t.hs = .bit
  bitn : t.bitn = 0
  ph : t.ph = false

/-- A session finds its frame's length at the byte done of the command byte, and in no other tick (R57, R166). -/
theorem Moves.flen_cases {l : Lines} {s t : State} (h : Moves l s t) (ht : t.busy = true) :
    t.flen = s.flen ∨ (s.offset = 0 ∧ ∃ k, t.FindsLength k) := by
  cases h with
  | expire => cases ht
  | frameSent => cases ht
  | sampled => rcases sample_cases l (s.setCnt 0) with ⟨-, v, e⟩ | ⟨-, -, v, e⟩ <;> rw [e] <;> simp
  | byteDone _ _ _ _ h =>
    rcases rxByteDone_cases s.acked with ⟨-, -, e⟩ | ⟨k, h0, -, e⟩ | ⟨-, -, e⟩ | ⟨-, -, e⟩ <;> rw [e] at h
    · cases h
      cases ht
    · cases h
      exact .inr ⟨s.acked_offset ▸ h0, k, by constructor <;> simp⟩
    · obtain ⟨k, p, ck, -, -, -, rfl⟩ := runReceived_eq_next h
      split at ht
      · simp at ht
      · next hr => rw [if_neg hr]; simp
    · cases h
      simp
  | _ => simp

/-- A tick of a session that goes on brings the ticks left down by more than what a longer frame brings them up. -/
theorem Moves.ticksLeft_frame_lt {l : Lines} {s t : State} (h : Moves l s t) (hb : s.busy = true) (hs : s.InSession)
    (ht : t.busy = true) :
    t.ticksLeft + s.frameLimit * s.byteTicks < s.ticksLeft + t.frameLimit * s.byteTicks := by
  rcases h.flen_cases ht with hflen | ⟨ho, k, hk⟩
  · have := h.ticksLeft_lt hb hs ht
    rw [frameLimit_eq hflen]
    omega
  · obtain ⟨hrole, hlatched⟩ := h.role_latched ht
    have hbyte := byteTicks_eq hrole hlatched
    have hcur := currentTicks_le_byteTicks hk.hs hk.bitn hk.ph
    have hpos := hs.afterWait_lt
    have ht2 : (t.frameLimit - 2) * s.byteTicks + 2 * s.byteTicks = t.frameLimit * s.byteTicks := by
      have := k.flen_bounds
      rw [← Nat.add_mul, frameLimit_of_flen hk.flen, Nat.sub_add_cancel (by omega)]
    have hfirst := laterTicks_of_first ho
    have htl : t.laterTicks = (t.frameLimit - 2) * s.byteTicks := by
      rw [State.laterTicks, hk.offset, hbyte]
      rfl
    rw [State.ticksLeft, State.ticksLeft, htl]
    omega

/-- The same from step to step, whatever the host does. -/
theorem step_ticksLeft_frame_lt {s t : State} (hinv : s.Inv) (hb : s.busy = true) (h : step s = .next t)
    (ht : t.busy = true) :
    t.ticksLeft + s.frameLimit * s.byteTicks < s.ticksLeft + t.frameLimit * s.byteTicks := by
  obtain ⟨u, l, v, same, hub, hu, hmoves, hv, -, -, -, -, rfl⟩ := step_of_session hinv hb h ht
  have hlt := hmoves.ticksLeft_frame_lt hub hu hv
  rw [same.ticksLeft_eq, frameLimit_eq same.flen.symm, byteTicks_eq same.role.symm same.latched.symm] at hlt
  exact hlt

/-! Over a run -/

/-- A session in its wait for the start is at its first byte. -/
theorem State.InSession.offset_of_idle {s : State} (hs : s.InSession) (hh : s.hs = .idle) : s.offset = 0 := by
  obtain ⟨-, k, hk⟩ | hear := hs.role
  · exact (hk.first (.inl hh)).1
  · exact (hear.first (.inl hh)).1

/-- A session that knows its command knows its frame's length (R57, R58). -/
theorem State.InSession.flen_of_cidx {s : State} (hs : s.InSession) {k : Cmd} (hk : s.cidx = some k) :
    s.flen = BitVec.ofNat 6 k.flen := by
  obtain ⟨-, k', hk'⟩ | hear := hs.role
  · obtain rfl : k' = k := Option.some.inj (hk'.cidx.symm.trans hk)
    exact hk'.flen
  · obtain ⟨-, -, hnone⟩ | ⟨k', hcidx, hflen, -⟩ := hear.frame
    · rw [hnone] at hk
      cases hk
    · obtain rfl : k' = k := Option.some.inj (hcidx.symm.trans hk)
      exact hflen

/-- A run of `m` ticks from the wait for the start on, with the session there after each of them: the ticks spent and
left are within the bound for the frame as far as it is known then. -/
theorem run_session_budget {s : State} (hinv : s.Inv) (hb : s.busy = true) (hh : s.hs = .idle) (m : Nat) :
    ∀ t : State, (∀ j, j ≤ m → ∃ u : State, Host.Core.run core j s = .next u ∧ u.busy = true) →
      Host.Core.run core m s = .next t →
      t.Inv ∧ t.busy = true ∧ t.role = s.role ∧ t.latched = s.latched ∧
        m + t.ticksLeft ≤ s.ticksToFirstByte + t.frameLimit * s.byteTicks := by
  induction m with
  | zero =>
    intro t _ h
    rw [run_zero] at h
    cases h
    have hs := hinv.session hb
    exact ⟨hinv, hb, rfl, rfl, by rw [ticksLeft_of_idle hh hs.role_ne_none (hs.offset_of_idle hh), Nat.zero_add]⟩
  | succ m ih =>
    intro t hbusy h
    obtain ⟨u, hu, -⟩ := hbusy m (by omega)
    obtain ⟨huinv, hub, hrole, hlatched, hle⟩ := ih u (fun j hj => hbusy j (by omega)) hu
    rw [run_add hu] at h
    have hstep := step_of_run_one h
    obtain ⟨t', ht', ht⟩ := hbusy (m + 1) le_rfl
    rw [run_add hu, h] at ht'
    cases ht'
    obtain ⟨hrole', hlatched'⟩ := step_role_latched huinv hub hstep ht
    have hlt := step_ticksLeft_frame_lt huinv hub hstep ht
    rw [byteTicks_eq hrole hlatched] at hlt
    exact ⟨stepKeepsTheInvariant u t huinv hstep, ht, hrole'.trans hrole, hlatched'.trans hlatched, by omega⟩

/-- Once the session has its command, the ticks spent are below the bound with that frame's length. -/
theorem run_lt_budget {s t : State} {k : Cmd} {m : Nat} (hinv : s.Inv) (hb : s.busy = true) (hh : s.hs = .idle)
    (hbusy : ∀ j, j ≤ m → ∃ u : State, Host.Core.run core j s = .next u ∧ u.busy = true)
    (h : Host.Core.run core m s = .next t) (hk : t.cidx = some k) :
    m < s.ticksToFirstByte + (k.len + 2) * s.byteTicks := by
  obtain ⟨htinv, ht, -, -, hle⟩ := run_session_budget hinv hb hh m t hbusy h
  have hs := htinv.session ht
  have hpos := hs.ticksLeft_pos
  rw [frameLimit_of_flen (hs.flen_of_cidx hk), Cmd.flen] at hle
  omega

/-- Settles O51: at issue the budget is that of the wait and the whole frame, and over a run the frame is the one whose
command was found. -/
theorem issuedSessionBudget : Obligations.IssuedSessionBudget := by
  refine ⟨fun sel k s => ⟨?_, ?_, ?_⟩, fun s t k m hinv hb hh hbusy h hk => ?_⟩
  · rw [ticksLeft_of_idle rfl (by simp) rfl, frameLimit_of_flen (k := k) rfl]
    rfl
  · rw [ticksLeft_of_idle rfl (by simp) rfl]
    rfl
  · rw [ticksLeft_of_idle rfl (by simp) rfl]
    rfl
  · have hlt := run_lt_budget hinv hb hh hbusy h hk
    unfold State.ticksToFirstByte State.byteTicks at hlt
    refine ⟨fun hr => ?_, fun hr => ?_, fun hr => ?_⟩ <;> 
      simp only [hr, State.tmoBound, State.tbitBound, State.tackBound, State.thalfBound, State.tackholdBound] at hlt <;>
      omega

end Sys2Proof.Machine
end

section
/-! What the frame codec puts into FBUF when a frame is sent, and what the end of a received frame leaves: RESULT, the
byte arrays and the assembly buffer (41_frame_codec.md R203, R210 to R213, 60_exceptions.md R315, R316). -/

namespace Sys2Proof.Machine

/-! The bytes of a frame -/

section bytes

variable (c : Config) (k : Cmd) (p : List Byte) (ck : Byte)

@[simp] theorem frameBytes_length : (frameBytes c k p ck).length = p.length + 2 := by simp [frameBytes]

/-- The payload stands after the command byte (R114). -/
theorem frameBytes_getD_succ {j : Nat} (h : j < p.length) : (frameBytes c k p ck).getD (j + 1) 0 = p.getD j 0 := by
  rw [frameBytes, List.getD_cons_succ, List.getD_append _ _ _ _ h]

/-- The assembly buffer once a whole frame of `k` stands in it (R59). -/
theorem read_shadow_of_frame {p : List Byte} (m : Memory) (hp : p.length = k.len) (i : Nat) :
    (m.writeBytes 0 (frameBytes c k p ck)).read i =
      if i < k.len + 2 then (frameBytes c k p ck).getD i 0 else m.read i := by
  rw [Memory.read_writeBytes, frameBytes_length, hp]
  simp only [Nat.zero_le, true_and, Nat.zero_add, Nat.sub_zero]

end bytes

/-- The first bytes of FBUF read back a frame written to it that has their number and fits the array (R43). -/
theorem fbuf_writeFbuf {s : State} {m : Memory} {f : List Byte} {n : Nat} (hm : s.mem = m.writeFbuf f)
    (hf : f.length = n) (hn : n ≤ 47) : (List.range n).map s.fbuf = f := by
  refine List.ext_getElem (by simp [hf]) fun i _ hi => ?_
  rw [List.getElem_map, List.getElem_range, State.fbuf, if_pos (by omega), hm, Memory.read_writeFbuf,
    if_pos (by omega), Nat.add_sub_cancel_left, List.getD_eq_getElem _ _ hi]

/-! SEND -/

/-- `serialize(k)` has `LEN[k]` bytes (R248). -/
@[simp] theorem State.serialize_length (s : State) (k : Cmd) : (s.serialize k).length = k.len := by
  simp [State.serialize, serializeFrom, State.txpayBytes]

/-- SEND of a command in an idle block is accepted (R281). -/
theorem exec_send_of_idle {s : State} (hb : s.busy = false) (ign : BitVec 5) (high : BitVec 20) (k : Cmd) :
    exec (.send ign k.index high) s = .next (acceptSend k.index k s) := by
  simp [exec, execSend, issue, hb]

/-- Settles O9: the issue is accepted, and its memory is the old one with the frame written to FBUF. -/
theorem sendOpensASenderSessionWithItsFrame : Obligations.SendOpensASenderSessionWithItsFrame := by
  rintro ign sel high s k hb rfl
  exact ⟨acceptSend k.index k s, exec_send_of_idle hb ign high k, rfl, Memory.read_writeFbuf s.mem _⟩

/-! The end of a received frame -/

section received

variable {k : Cmd} {p : List Byte} {ck : Byte} {s : State}

/-- In a receiving session a frame's instruction is the frame done of that frame, held in `st.shadow` (R212). -/
theorem exec_frameInstr_of_receiving (hr : s.receiving = true) :
    exec (frameInstr k p ck) s = .next (frameDone k p ck (s.holding k (frameBytes s.cfg k p ck))) := by
  rw [exec_frameInstr, receiveFrame, if_pos hr]

/-- A frame that is wrong or not expected: FBUF alone is written, and the error is the checksum's if that is wrong
(R210 to R212). -/
theorem exec_frameInstr_of_invalid (hr : s.receiving = true)
    (h : s.cfg.checksum (s.cfg.code k :: p) ≠ ck ∨ (s.op = .receive ∧ s.latched.sel ≠ k.index)) :
    exec (frameInstr k p ck) s = .next
      (complete (if s.cfg.checksum (s.cfg.code k :: p) = ck then .unexpectedCommand else .checksumMismatch) 0 1
        ((s.holding k (frameBytes s.cfg k p ck)).setMem (s.mem.writeFbuf (frameBytes s.cfg k p ck)))) := by
  rw [exec_frameInstr_of_receiving hr, frameDone_eq, State.holding_cfg, State.holding_op, State.holding_latched,
    State.holding_mem]
  by_cases hck : s.cfg.checksum (s.cfg.code k :: p) = ck
  · rw [if_neg (not_not_intro hck), if_pos (h.resolve_left (not_not_intro hck)), if_pos hck]
  · rw [if_pos hck, if_neg hck]

/-- A right frame that RECEIVE, if it is one, expects: the payload is decoded into FIELD (R212). -/
theorem exec_frameInstr_of_valid (hr : s.receiving = true) (hck : s.cfg.checksum (s.cfg.code k :: p) = ck)
    (hsel : s.op = .receive → s.latched.sel = k.index) :
    exec (frameInstr k p ck) s = .next
      (complete .ok (anomaly s.cfg k p) 1
        ((s.holding k (frameBytes s.cfg k p ck)).setMem
          ((s.mem.writeFbuf (frameBytes s.cfg k p ck)).writeFields (extract s.cfg k p)))) := by
  rw [exec_frameInstr_of_receiving hr, frameDone_eq, State.holding_cfg, State.holding_op, State.holding_latched,
    State.holding_mem, if_neg (not_not_intro hck), if_neg fun h => h.2 (hsel h.1)]

/-- The session that has received the whole frame has all its bytes counted (R316). -/
theorem holding_nbytes (f : List Byte) (m : Memory) :
    ((s.holding k f).setMem m).nbytes 1 = BitVec.ofNat 6 k.flen := by
  cases k <;> rfl

theorem holding_sent (hr : s.receiving = true) (f : List Byte) (m : Memory) :
    ((s.holding k f).setMem m).sent = false := State.sent_of_receiving hr

theorem holding_resultCmdidx (hr : s.receiving = true) (f : List Byte) (m : Memory) :
    ((s.holding k f).setMem m).resultCmdidx = k.index := by
  rw [State.resultCmdidx, holding_sent hr]
  rfl

/-- RESULT of a received frame: its length, command and code, a received 0xC0 marked as ambiguous (R316). -/
theorem holding_resultWord (hr : s.receiving = true) (err : Completion) (anom : BitVec 45) (m : Memory) :
    ((s.holding k (frameBytes s.cfg k p ck)).setMem m).resultWord err anom 1 =
      receivedResult s.cfg k (decide (anom ≠ 0)) err.code := by
  have hn : 1 ≤ (BitVec.ofNat 6 k.flen).toNat := by
    rw [Cmd.flen_toNat]
    have := (Cmd.flen_bounds k).1
    omega
  have h0 : ((s.holding k (frameBytes s.cfg k p ck)).setMem m).shadow.read 0 = s.cfg.code k := by
    rw [State.setMem_shadow, State.holding_shadow, Memory.read_writeBytes, if_pos (by simp)]
    rfl
  have hcode : ((s.holding k (frameBytes s.cfg k p ck)).setMem m).resultCode 1 = s.cfg.code k := by
    rw [State.resultCode, holding_sent hr, if_neg Bool.false_ne_true, holding_nbytes, if_pos hn, h0]
  have hambig : ((s.holding k (frameBytes s.cfg k p ck)).setMem m).resultAmbig 1 =
      decide (s.cfg.code k = 0xC0#8) := by
    rw [State.resultAmbig, holding_sent hr, holding_nbytes, decide_eq_true hn, h0]
    rfl
  rw [State.resultWord, holding_nbytes, holding_resultCmdidx hr, hcode, hambig]
  rfl

/-- The completion of a received frame, element by element (R315): the session is over, RESULT and the anomaly bitmap
are its outcome, and the assembly buffer keeps the frame. -/
theorem complete_holding (hr : s.receiving = true) {err : Completion} (herr : err ≠ .timeout) (anom : BitVec 45)
    (m : Memory) :
    complete err anom 1 ((s.holding k (frameBytes s.cfg k p ck)).setMem m) =
      { s with
        result := receivedResult s.cfg k (decide (anom ≠ 0)) err.code,
        anom0 := anom.extractLsb' 0 32, anom1 := (anom.extractLsb' 32 13).setWidth 32, mem := m,
        shadow := s.shadow.writeBytes 0 (frameBytes s.cfg k p ck),
        done := true, busy := false, op := .none, role := .none, hs := .idle, bitn := 0, ph := false, cnt := 0,
        offset := 0, flen := 0, cidx := none, oe := Lines.released } := by
  rw [complete, holding_resultWord hr, if_neg herr]
  simp [State.closeSession, State.setResult]

end received

/-- ANOM1 and ANOM0 hold the whole bitmap (R41, R245). -/
theorem anomWords_append (a : BitVec 45) :
    (a.extractLsb' 32 13).setWidth 32 ++ a.extractLsb' 0 32 = a.setWidth 64 := by
  apply BitVec.eq_of_getLsbD_eq
  intro i hi
  rw [BitVec.getLsbD_setWidth, decide_eq_true hi, Bool.true_and]
  by_cases h : i < 32
  · rw [getLsbD_append_low _ _ _ h, BitVec.getLsbD_extractLsb', decide_eq_true h, Bool.true_and, Nat.zero_add]
  · rw [getLsbD_append_high _ _ _ (by omega), BitVec.getLsbD_setWidth, BitVec.getLsbD_extractLsb',
      show 32 + (i - 32) = i by omega, decide_eq_true (by omega : i - 32 < 32), Bool.true_and]
    by_cases h13 : i - 32 < 13
    · rw [decide_eq_true h13, Bool.true_and]
    · rw [decide_eq_false h13, Bool.false_and, BitVec.getLsbD_of_ge _ _ (by omega)]

/-- A byte after a frame is delivered: FBUF has the frame and FIELD the decoded values (R212, R246). -/
theorem read_writeFbuf_writeFields (m : Memory) (f fv : List Byte) (a : Nat) :
    ((m.writeFbuf f).writeFields fv).read a =
      if 0x040 ≤ a ∧ a < 0x06F then f.getD (a - 0x040) 0
      else if 0x100 ≤ a ∧ a < 0x140 then fv.getD (a - 0x100) 0
      else m.read a := by
  rw [Memory.read_writeFields, Memory.read_writeFbuf]
  by_cases hf : 0x040 ≤ a ∧ a < 0x06F
  · rw [if_neg (by rw [fieldBase]; omega), if_pos hf, if_pos hf]
  · rw [if_neg hf, if_neg hf]

/-- Settles O12: a valid frame completes OK, with its payload decoded. -/
theorem receivedFrameIsDelivered : Obligations.ReceivedFrameIsDelivered := by
  intro k p ck s hr hp hck hsel
  refine ⟨_, exec_frameInstr_of_valid hr hck hsel, ?_⟩
  rw [complete_holding hr (by decide)]
  exact ⟨rfl, anomWords_append _, read_writeFbuf_writeFields s.mem _ _, read_shadow_of_frame s.cfg k ck s.shadow hp⟩

/-- Settles O13: an invalid frame completes with its error; of the host's byte arrays only FBUF is written. -/
theorem invalidFrameIsReportedAndDiscarded : Obligations.InvalidFrameIsReportedAndDiscarded := by
  intro k p ck s hr hp hbad
  refine ⟨_, exec_frameInstr_of_invalid hr hbad, ?_⟩
  rw [complete_holding hr (by split_ifs <;> decide), apply_ite Completion.code]
  exact ⟨rfl, Memory.read_writeFbuf s.mem _, read_shadow_of_frame s.cfg k ck s.shadow hp⟩

/-- Settles O15: FBUF holds the encoded frame, which decodes as the command's instruction, and that delivers it. -/
theorem sentFrameIsReceivedWhole : Obligations.SentFrameIsReceivedWhole := by
  intro ign high k s r hwf hcfg hb hrb hrop h1 h2
  have hr : r.receiving = true := by simp [State.receiving, hrb, hrop]
  have hl : lookup r.cfg r.op r.latched.sel r.latched.pf (r.cfg.code k) = some k :=
    lookup_code_of_selected (hcfg ▸ hwf) (fun hk => by simp [postflashSelect, hrop, h1 hk])
      (fun hk => by simp [postflashSelect, hrop, h2 hk])
  have hsent : (List.range k.flen).map (acceptSend k.index k s).fbuf = encodeFrame r.cfg k (s.serialize k) := by
    rw [hcfg]
    exact fbuf_writeFbuf (acceptSend_mem ..) (by simp [encodeFrame, Cmd.flen]) (Cmd.flen_bounds k).2
  refine ⟨_, frameInstr k (s.serialize k) _, _, exec_send_of_idle hb ign high k,
    hsent ▸ decodeFrame_frameBytes hl _ (s.serialize_length k),
    exec_frameInstr_of_valid hr rfl (by simp [hrop]),
    complete_err .., (resultWord_cmdidx ..).trans (holding_resultCmdidx hr _ _), fun j hj => ?_⟩
  have hlen : k.len + 2 ≤ 47 := (Cmd.flen_bounds k).2
  rw [State.fbuf, if_pos (by omega), complete_mem, State.setMem_mem, read_writeFbuf_writeFields,
    if_pos (by rw [fbufBase]; omega), Nat.add_sub_cancel_left,
    frameBytes_getD_succ _ _ _ _ (by rwa [State.serialize_length])]

end Sys2Proof.Machine
end

section
/-! The serializer over a whole layout: what each bit of a payload becomes, the byte round trip, and the anomaly
bitmap (42_message_catalog.md R245 to R249). -/

namespace Sys2Proof.Machine

/-! Extraction -/

/-- Past the layout a value is 0, whether it is one of the 64 or not (R247). -/
theorem extract_getD_of_le (c : Config) (k : Cmd) (p : List Byte) {j : Nat} (h : (c.layout k).length ≤ j) :
    (extract c k p).getD j 0 = 0 := by
  rw [extract, getD_map_range, List.getElem?_eq_none h, ite_self]

/-- Settles O25: a layout has at most 64 entries, so each of its values is the field of its entry. -/
theorem extractTakesEachEntrysBits : Obligations.ExtractTakesEachEntrysBits := by
  intro c k p hwf
  obtain ⟨hfit, -, hlen⟩ := wf_of_layoutWf hwf
  refine ⟨extract_length c k p, fun j e b he => ?_, fun j => extract_getD_of_le c k p⟩
  have hj : j < (c.layout k).length := (List.getElem?_eq_some_iff.mp he).1
  obtain ⟨-, -, -, hbits⟩ := hfit e (List.mem_of_getElem? he)
  rw [extract_getD_of_entry c k p j e (by omega) he, fieldOf_getLsbD e p (by omega)]

/-! Insertion of a layout's fields

Each entry writes only the bits it covers, and no two cover the same bit. -/

theorem not_entryCovers_of_disjoint {e f : Entry} {i b : Nat} (hd : e.disjoint f) (he : entryCovers e i b) :
    ¬ entryCovers f i b := by
  unfold entryCovers at *
  omega

section insertion

variable {e : Entry} {es : List Entry} {p : List Byte} {i b : Nat}

theorem insertField_getLsbD_of_covers (v : Byte) (hfit : e.byte < p.length ∧ e.lo + e.width ≤ 8)
    (hc : entryCovers e i b) : ((insertField e v p).getD i 0).getLsbD b = v.getLsbD (b - e.lo) := by
  rw [insertField_getLsbD e v p hfit.2 hfit.1 i b (by unfold entryCovers at hc; omega)]
  exact if_pos hc

theorem insertField_getLsbD_of_not_covers (v : Byte) (hfit : e.byte < p.length ∧ e.lo + e.width ≤ 8)
    (hb : b < 8) (hc : ¬ entryCovers e i b) :
    ((insertField e v p).getD i 0).getLsbD b = (p.getD i 0).getLsbD b := by
  rw [insertField_getLsbD e v p hfit.2 hfit.1 i b hb]
  exact if_neg hc

/-- A bit that no entry covers is the raw payload's (R248). -/
theorem insertFields_getLsbD_of_not_covers (fv : Nat → Byte)
    (hfit : ∀ e ∈ es, e.byte < p.length ∧ e.lo + e.width ≤ 8) (hb : b < 8) (hc : ∀ e ∈ es, ¬ entryCovers e i b) :
    ((insertFields es fv p).getD i 0).getLsbD b = (p.getD i 0).getLsbD b := by
  induction es generalizing fv p with
  | nil => rfl
  | cons e es ih =>
    obtain ⟨hfe, hfes⟩ := List.forall_mem_cons.mp hfit
    obtain ⟨hce, hces⟩ := List.forall_mem_cons.mp hc
    rw [insertFields, ih _ (by simpa using hfes) hces, insertField_getLsbD_of_not_covers _ hfe hb hce]

/-- A bit that an entry covers is its field value's: the entries after it leave the bit alone (R248). -/
theorem insertFields_getLsbD_of_covers {j : Nat} (fv : Nat → Byte)
    (hfit : ∀ e ∈ es, e.byte < p.length ∧ e.lo + e.width ≤ 8) (hd : es.Pairwise Entry.disjoint)
    (he : es[j]? = some e) (hc : entryCovers e i b) :
    ((insertFields es fv p).getD i 0).getLsbD b = (fv j).getLsbD (b - e.lo) := by
  induction es generalizing j fv p with
  | nil => simp at he
  | cons f es ih =>
    obtain ⟨hff, hfes⟩ := List.forall_mem_cons.mp hfit
    obtain ⟨hdf, hdes⟩ := List.pairwise_cons.mp hd
    have hfit' : ∀ e ∈ es, e.byte < (insertField f (fv 0) p).length ∧ e.lo + e.width ≤ 8 := by simpa using hfes
    rw [insertFields]
    cases j with
    | zero =>
      obtain rfl : f = e := by simpa using he
      have hb : b < 8 := by unfold entryCovers at hc; omega
      rw [insertFields_getLsbD_of_not_covers _ hfit' hb fun g hg => not_entryCovers_of_disjoint (hdf g hg) hc,
        insertField_getLsbD_of_covers _ hff hc]
    | succ j => exact ih _ hfit' hdes (by simpa using he)

end insertion

/-- Settles O26: the entries of a well-formed layout lie in the payload and share no bit. -/
theorem serializeInsertsFieldsAndKeepsOpaqueBits : Obligations.SerializeInsertsFieldsAndKeepsOpaqueBits := by
  intro c k fv p hwf hp
  obtain ⟨hwfs, hd, -⟩ := wf_of_layoutWf hwf
  have hfit : ∀ e ∈ c.layout k, e.byte < p.length ∧ e.lo + e.width ≤ 8 := fun e he => by
    obtain ⟨hbyte, -, -, hbits⟩ := hwfs e he
    exact ⟨hp ▸ hbyte, hbits⟩
  refine ⟨(insertFields_length _ fv p).trans hp, fun j e i b he hc => insertFields_getLsbD_of_covers fv hfit hd he hc,
    fun i b hc => ?_⟩
  by_cases hb : b < 8
  · exact insertFields_getLsbD_of_not_covers fv hfit hb hc
  · rw [BitVec.getLsbD_of_ge _ _ (by omega), BitVec.getLsbD_of_ge _ _ (by omega)]

/-- Settles O27, bit by bit: a covered bit goes out into its entry's value and comes back, an uncovered one stays. -/
theorem serializeOfExtractedFieldsIsThePayload : Obligations.SerializeOfExtractedFieldsIsThePayload := by
  intro c k p hwf hp
  obtain ⟨-, hvalue, -⟩ := extractTakesEachEntrysBits c k p hwf
  obtain ⟨hlen, hcovered, hopaque⟩ :=
    serializeInsertsFieldsAndKeepsOpaqueBits c k (fun j => (extract c k p).getD j 0) p hwf hp
  refine List.ext_getElem (hlen.trans hp.symm) fun i h h' => ?_
  rw [← List.getD_eq_getElem _ 0 h, ← List.getD_eq_getElem _ 0 h']
  refine BitVec.eq_of_getLsbD_eq fun b hb => ?_
  by_cases hc : ∃ e ∈ c.layout k, entryCovers e i b
  · obtain ⟨e, he, hc⟩ := hc
    obtain ⟨j, hj⟩ := List.mem_iff_getElem?.mp he
    rw [hcovered j e i b hj hc, hvalue j e _ hj]
    obtain ⟨rfl, hlo, hhi⟩ := hc
    rw [decide_eq_true (by omega), Bool.true_and, Nat.add_sub_cancel' hlo]
  · exact hopaque i b fun e he hce => hc ⟨e, he, hce⟩

/-! The anomaly bitmap -/

/-- The marks of an entry list are gathered over the bits marked before. -/
theorem foldl_entryAnomaly_getLsbD (p : List Byte) (es : List Entry) (a : BitVec 45) (i : Nat) :
    (es.foldl (fun a e => a ||| entryAnomaly p e) a).getLsbD i = true ↔
      a.getLsbD i = true ∨ ∃ e ∈ es, (entryAnomaly p e).getLsbD i = true := by
  induction es generalizing a with
  | nil => simp
  | cons e es ih => rw [List.foldl_cons, ih, BitVec.getLsbD_or, Bool.or_eq_true, or_assoc, List.exists_mem_cons_iff]

/-- Settles O28: the bitmap starts at 0, and each entry marks its own byte. -/
theorem anomalyBitmapMarksDifferingConstants : Obligations.AnomalyBitmapMarksDifferingConstants := by
  intro c k p i hi
  have hstart : (0 : BitVec 45).getLsbD i = false := BitVec.getLsbD_zero
  simp only [anomaly, foldl_entryAnomaly_getLsbD, hstart, Bool.false_eq_true, false_or, entryAnomaly_getLsbD p _ i hi]

end Sys2Proof.Machine
end

section
/-! The scaled-quantity formulas: rounding to a byte, and the encode of each quantity against its decode
(42_message_catalog.md R252 to R265). -/

namespace Sys2Proof.Machine

/-! Rounding to a byte -/

/-- The clamp of R258 leaves a value between 0 and 255 to the rounding alone. -/
theorem roundClamp_eq_round {y : ℝ} (h0 : 0 ≤ y) (h255 : y ≤ 255) : roundClamp y = round y := by
  have hlo : 0 ≤ ⌊y + 1 / 2⌋ := Int.floor_nonneg.mpr (by linarith)
  have hhi : ⌊y + 1 / 2⌋ < 256 := Int.floor_lt.mpr (by push_cast; linarith)
  rw [roundClamp, round_eq]
  omega

/-- The encoded byte is the clamped integer itself: the clamp keeps it in the byte's range. -/
theorem encodeRaw_toNat (y : ℝ) : ((encodeRaw y).toNat : ℤ) = roundClamp y := by
  rw [encodeRaw, BitVec.toNat_ofInt, roundClamp]
  omega

/-- An unrounded value that is a byte encodes to that byte. -/
theorem encodeRaw_toNat_cast (x : Byte) : encodeRaw (x.toNat : ℝ) = x := by
  have hx : (x.toNat : ℝ) ≤ 255 := by exact_mod_cast Nat.le_of_lt_succ x.isLt
  refine BitVec.eq_of_toNat_eq (Int.ofNat_inj.mp ?_)
  rw [encodeRaw_toNat, roundClamp_eq_round (Nat.cast_nonneg _) hx, round_natCast]

/-- Within the byte's range the rounding moves a value by at most half a unit (R265). -/
theorem abs_sub_encodeRaw_le {y : ℝ} (h0 : 0 ≤ y) (h255 : y ≤ 255) :
    |y - ((encodeRaw y).toNat : ℝ)| ≤ 1 / 2 := by
  have h : ((encodeRaw y).toNat : ℝ) = (round y : ℝ) := by
    exact_mod_cast (encodeRaw_toNat y).trans (roundClamp_eq_round h0 h255)
  rw [h]
  exact abs_sub_round y

/-! The correction of an EXPOSURE byte (R261) -/

theorem exposureRaw_of_ne {y : ℝ} (h : encodeRaw y ≠ bulbByte) : exposureRaw y = encodeRaw y := if_neg h

theorem exposureRaw_ne_bulb (y : ℝ) : exposureRaw y ≠ bulbByte := by
  by_cases h : encodeRaw y = bulbByte
  · rw [exposureRaw, if_pos h]
    split <;> decide
  · rwa [exposureRaw_of_ne h]

/-- The neighbour of 128 on the value's own side is at most one unit away. -/
theorem abs_sub_exposureRaw_le_one {y : ℝ} (h : encodeRaw y = bulbByte) (hy : |y - 128| ≤ 1 / 2) :
    |y - ((exposureRaw y).toNat : ℝ)| ≤ 1 := by
  rw [exposureRaw, if_pos h]
  rw [abs_le] at hy ⊢
  split_ifs with hlt
  · norm_num
    constructor <;> linarith
  · norm_num
    constructor <;> linarith

theorem abs_sub_exposureRaw_le {y : ℝ} (h0 : 0 ≤ y) (h255 : y ≤ 255) :
    |y - ((exposureRaw y).toNat : ℝ)| ≤ if encodeRaw y = bulbByte then 1 else 1 / 2 := by
  have hraw := abs_sub_encodeRaw_le h0 h255
  split_ifs with h
  · exact abs_sub_exposureRaw_le_one h (by simpa [h] using hraw)
  · rwa [exposureRaw_of_ne h]

/-! Each encode, given the unrounded value -/

theorem encodeWith_of_pos {inv : ℝ → ℝ} {v : ℝ} (h : 0 < v) : encodeWith inv v = some (encodeRaw (inv v)) := if_pos h

theorem encodeExposure_of_pos {t : ℝ} (h : 0 < t) :
    encodeExposure (.seconds t) = some (exposureRaw (exposureInverse t)) := if_pos h

/-- A positive value whose unrounded value is the byte `x` encodes to `x`. -/
theorem encodeWith_of_inverse_eq {inv : ℝ → ℝ} {v : ℝ} {x : Byte} (hv : 0 < v) (h : inv v = x.toNat) :
    encodeWith inv v = some x := by
  rw [encodeWith_of_pos hv, h, encodeRaw_toNat_cast]

/-- R265(b) for the quantities that R258 encodes without a correction. -/
theorem encodeWith_within_half {inv : ℝ → ℝ} {v : ℝ} (hv : 0 < v) (h0 : 0 ≤ inv v) (h255 : inv v ≤ 255) :
    ∃ x, encodeWith inv v = some x ∧ |inv v - (x.toNat : ℝ)| ≤ 1 / 2 :=
  ⟨_, encodeWith_of_pos hv, abs_sub_encodeRaw_le h0 h255⟩

/-! Each inverse undoes its decode (R259 to R264) -/

theorem pow2_pos (y : ℝ) : 0 < pow2 y := Real.rpow_pos_of_pos two_pos y

@[simp] theorem logb_pow2 (y : ℝ) : Real.logb 2 (pow2 y) = y := Real.logb_rpow two_pos (by norm_num)

section inverses

variable (x : Byte)

theorem powerInverse_powerFraction : powerInverse (powerFraction x) = x.toNat := by
  rw [powerInverse, powerFraction, logb_pow2]
  ring

theorem isoInverse_isoValue : isoInverse (isoValue x) = x.toNat := by
  rw [isoInverse, isoValue, mul_div_cancel_left₀ _ (by norm_num), logb_pow2]
  ring

theorem exposureInverse_pow2 : exposureInverse (pow2 (-(x.toNat : ℝ) / 6)) = x.toNat := by
  rw [exposureInverse, logb_pow2]
  ring

theorem fstopInverse_fstopValue : fstopInverse (fstopValue x) = x.toNat := by
  rw [fstopInverse, fstopValue, logb_pow2]
  ring

theorem focalInverse_focalLength : focalInverse (focalLength x) = x.toNat := by
  rw [focalInverse, focalLength, logb_pow2]
  ring

theorem distanceInverse_focusDistance : distanceInverse (focusDistance x) = x.toNat := by
  rw [distanceInverse, focusDistance, logb_pow2]
  ring

end inverses

/-- R265(a) for EXPOSURE: the bulb byte is bulb on both sides, and no other byte needs the correction. -/
theorem encodeExposure_exposureTime (x : Byte) : encodeExposure (exposureTime x) = some x := by
  unfold exposureTime
  split_ifs with h
  · rw [h]
    rfl
  · rw [encodeExposure_of_pos (pow2_pos _), exposureInverse_pow2,
      exposureRaw_of_ne (by rwa [encodeRaw_toNat_cast]), encodeRaw_toNat_cast]

/-- Settles O58: each decoded value is positive, and its unrounded value is the byte itself. -/
theorem scaledBytesRoundTrip : Obligations.ScaledBytesRoundTrip := fun x =>
  ⟨encodeWith_of_inverse_eq (pow2_pos _) (powerInverse_powerFraction x),
    encodeWith_of_inverse_eq (mul_pos (by norm_num) (pow2_pos _)) (isoInverse_isoValue x),
    encodeExposure_exposureTime x,
    encodeWith_of_inverse_eq (pow2_pos _) (fstopInverse_fstopValue x),
    encodeWith_of_inverse_eq (pow2_pos _) (focalInverse_focalLength x),
    encodeWith_of_inverse_eq (pow2_pos _) (distanceInverse_focusDistance x)⟩

/-- Settles O59: five encodes round alone, and EXPOSURE's corrects the bulb byte besides. -/
theorem encodedBytesAreWithinHalfAUnit : Obligations.EncodedBytesAreWithinHalfAUnit := fun _ hv =>
  ⟨encodeWith_within_half hv, encodeWith_within_half hv,
    fun h0 h255 => ⟨_, encodeExposure_of_pos hv, abs_sub_exposureRaw_le h0 h255⟩,
    encodeWith_within_half hv, encodeWith_within_half hv, encodeWith_within_half hv⟩

/-- Settles O60: the corrected byte is never 128. -/
theorem noExposureTimeEncodesAsBulb : Obligations.NoExposureTimeEncodesAsBulb :=
  ⟨rfl, fun _ ht => ⟨_, encodeExposure_of_pos ht, exposureRaw_ne_bulb _⟩⟩

end Sys2Proof.Machine
end

section
/-! What the host operations do: the outcome of an issue by its OP, its CMDSEL and BUSY, and from it NOP, the two receive
operations of an idle block, and the rejected rows (43_host_ops.md R280 to R286, 30_encoding.md R111, R113). -/

namespace Sys2Proof.Machine

variable {s : State}

/-! NOP -/

/-- Settles O6: the test for NOP stands before the one for BUSY. -/
theorem nopChangesNothing : Obligations.NopChangesNothing := fun _ sel _ s =>
  congrArg Host.Outcome.next (show issue 0 sel s = s from if_pos rfl)

/-! An accepted issue -/

/-- In an idle block no CMDSEL makes LISTEN a rejected issue (R284). -/
theorem issue_listen_of_idle (hb : s.busy = false) (sel : BitVec 4) : issue 1 sel s = acceptListen sel s := by
  simp [issue, hb]

/-- In an idle block RECEIVE of a logical command is accepted (R286). -/
theorem issue_receive_of_idle (hb : s.busy = false) {sel : BitVec 4} (hsel : sel.toNat < 12) :
    issue 3 sel s = acceptReceive sel s := by
  obtain ⟨k, hk, -⟩ := Cmd.ofIndex_of_lt hsel
  simp [issue, hb, hk]

/-- Settles O7: the issue is accepted, and the session it opens is the record named. -/
theorem listenOpensAnObserverSession : Obligations.ListenOpensAnObserverSession := fun _ sel _ _ hb =>
  congrArg Host.Outcome.next (issue_listen_of_idle hb sel)

/-- Settles O8: the issue is accepted, and the session it opens is the record named. -/
theorem receiveOpensAReceiverSession : Obligations.ReceiveOpensAReceiverSession := fun _ _ _ _ hb hsel =>
  congrArg Host.Outcome.next (issue_receive_of_idle hb hsel)

/-! A rejected issue -/

/-- When an issue is rejected (R282): in a session, with a reserved OP, or with a CMDSEL that names no command where the
operation uses it, which LISTEN does not. -/
def Rejected (op : Nat) (sel : BitVec 4) (s : State) : Prop :=
  op ≠ 0 ∧ (s.busy = true ∨ 4 ≤ op ∨ (12 ≤ sel.toNat ∧ op ≠ 1))

/-- A rejected issue sets REJ alone: each way to accept one is shut by its BUSY, its OP or its CMDSEL. -/
theorem issue_of_rejected {op : Nat} {sel : BitVec 4} (h : Rejected op sel s) :
    issue op sel s = { s with rej := true } := by
  obtain ⟨h0, h⟩ := h
  rcases issue_cases op sel s with
    ⟨hop, -⟩ | ⟨-, e⟩ | ⟨hb, rfl, -⟩ | ⟨k, hb, rfl, rfl, -⟩ | ⟨hb, rfl, hsel, -⟩
  · exact absurd hop h0
  · exact e
  · have h := h.resolve_left (Bool.eq_false_iff.mp hb)
    omega
  · have h := h.resolve_left (Bool.eq_false_iff.mp hb)
    have := k.index_lt
    omega
  · have h := h.resolve_left (Bool.eq_false_iff.mp hb)
    omega

/-- The rows whose OP is reserved (R111). -/
theorem rejected_of_reservedOp {op : Nat} (h : 4 ≤ op) (sel : BitVec 4) (s : State) : Rejected op sel s :=
  ⟨by omega, .inr (.inl h)⟩

/-- SEND and RECEIVE, with a CMDSEL that names no command or while a session is active (R113, R282). -/
theorem rejected_of_transfer {op : Nat} {sel : BitVec 4} (hop : op = 2 ∨ op = 3)
    (h : 12 ≤ sel.toNat ∨ s.busy = true) : Rejected op sel s :=
  ⟨by omega, h.symm.imp_right fun hsel => .inr ⟨hsel, by omega⟩⟩

/-- Settles O10: each row listed is a rejected issue. -/
theorem rejectedIssueSetsOnlyRej : Obligations.RejectedIssueSetsOnlyRej := by
  intro ign sel selLo high s
  have sets {op : Nat} {sel : BitVec 4} (h : Rejected op sel s) :
      Host.Outcome.next (issue op sel s) = (.next { s with rej := true } : Result) :=
    congrArg _ (issue_of_rejected h)
  have reserved : 12 ≤ (reservedSel selLo).toNat ∨ s.busy = true := .inl (reservedSel_ge selLo)
  refine ⟨?op4, ?op5, ?op6, ?op7, ?sendReserved, ?receiveReserved, fun h => ⟨?send, ?receive⟩, fun hb => ?listen⟩
  case op4 | op5 | op6 | op7 => exact sets (rejected_of_reservedOp (by decide) sel s)
  case sendReserved => exact sets (rejected_of_transfer (.inl rfl) reserved)
  case receiveReserved => exact sets (rejected_of_transfer (.inr rfl) reserved)
  case send => exact sets (rejected_of_transfer (.inl rfl) h)
  case receive => exact sets (rejected_of_transfer (.inr rfl) h)
  case listen => exact sets (sel := sel) ⟨by decide, .inl hb⟩

end Sys2Proof.Machine
end

section
/-! What a completion writes, as one record (60_exceptions.md R315). -/

namespace Sys2Proof.Machine

/-- Settles O16: a completion is two writes. The first sets RESULT, ANOM0 and ANOM1, from the session as it still is;
the second closes that session and shares no field with the first. -/
theorem completionEndsTheSession : Obligations.CompletionEndsTheSession := by
  intro err anom c s
  rw [complete, State.closeSession, State.setResult]

end Sys2Proof.Machine
end

section
/-! A tick with `rst` = 1, from any state (70_reset_and_hazards.md R350, R351). -/

namespace Sys2Proof.Machine

/-- A reset tick on the first listed inputs uses up those inputs and nothing after them. -/
theorem resetTick_of_cons {s : State} {i : TickInput} {rest : List TickInput} (hi : s.inputs = i :: rest) :
    resetTick s = { State.reset with cfg := s.cfg, inputs := rest, tick := s.tick + 1 } := by
  rw [resetTick, hi, List.tail_cons]

/-- Settles O42: with `rst` = 1 the step is the reset tick, which of the state before it keeps the configuration, the
inputs to come and the tick count, and of the tick's own inputs nothing. -/
theorem resetTickResetsEveryElement : Obligations.ResetTickResetsEveryElement := by
  intro s h peer rest hwf hi
  have hr : s.nextInput.rst = true := by rw [State.nextInput_of_cons hi]
  rw [step_eq_resetTick hwf hr, resetTick_of_cons hi]

end Sys2Proof.Machine
end
